-- ==== Sys2Proof/Word.lean ====
section
/-! DEFINITION. The words PXB handles, and the two closed sets the spec names: the eight pixel formats and the
four bit depths. Everything computed from them stands in Machine/Operands.lean. -/

namespace Sys2Proof

/-- A command word: one 128-bit word, bit 0 least significant (30_encoding.md R60). -/
abbrev Word := BitVec 128

/-- A response word: status and value (30_encoding.md R67). -/
abbrev Response := BitVec 64

/-- A byte is 8 bits (10_state.md R25). -/
abbrev Byte := BitVec 8

/-- A colour operand: unsigned 16 bits for every format (00_scope.md R6). -/
abbrev Colour := BitVec 16

/-- The closed set of 8 pixel formats, in the order of their codes 0 to 7 (00_scope.md R8). -/
inductive PixFormat where
  | m1rm | m1rl | m1c | rgb565 | g2r | g4rm | g4rl | g8
deriving DecidableEq, Repr

/-- The four bit depths of a glyph bitmap, and of a coverage value: 1, 2, 4, 8 (10_state.md R17). -/
inductive Depth where
  | d1 | d2 | d4 | d8
deriving DecidableEq, Repr

end Sys2Proof
end

