-- ==== Sys2Proof/Config.lean ====
section
/-! DEFINITION. What the spec leaves to the implementation: the free values, which have no body, and the two
selector values the model picks for the reset state (log 3). -/

namespace Sys2Proof

/-- The free draws of 10_state.md R28: what a RDREG of a context register answers before the first successful
CFGS or CFGG. Applied to a counter, so that two reads need not agree; cut to the register's width by its
reader. DESIGN CHOICE as to form, log 4: safe, nothing can be proved of its values. -/
opaque Config.freeDraw : Nat → BitVec 32

/-- The free bits of 70_reset_and_hazards.md R201: for the n-th draw and a byte offset, whether that byte of an
abandoned command's footprint holds its new value (true) or its old one. Log 8: safe. -/
opaque Config.freeBit : Nat → Nat → Bool

/-- PF_FORMAT in the reset state. DESIGN CHOICE, log 3: the spec gives no value; unsafe. -/
abbrev Config.resetFormat : BitVec 3 := 0

/-- G_BPP in the reset state. DESIGN CHOICE, log 3: the spec gives no value and names 1, 2, 4, 8 as the legal
ones; unsafe. -/
abbrev Config.resetBpp : BitVec 4 := 1

end Sys2Proof
end

