-- ==== Sys2Proof/Syntax.lean ====
section
/-! DEFINITION. The instructions: one constructor per row of spec/opcode_table.json, 43 in all (30_encoding.md
R64). A dotted variant such as PSET.G4RM is a row of its own; which variant a word stands for is decided by a
selector register, see Decode.lean. Operands are the fields of the command word, at their widths (R60, R61). -/

namespace Sys2Proof

/-- The 43 instructions of PXB, each with the rule that gives its meaning. -/
inductive Instr where
  /-- CFGS `fmt, stride, len`: configure the surface (40_config.md R80). -/
  | cfgs (fmt : BitVec 8) (stride : BitVec 16) (len : BitVec 32)
  /-- CFGG `bpp, width, height, offset, len`: configure the glyph (40_config.md R83). -/
  | cfgg (bpp : BitVec 8) (width height : BitVec 8) (offset len : BitVec 32)
  /-- RDREG `reg`: read a register (40_config.md R85). -/
  | rdreg (reg : BitVec 8)
  /-- PSET.M1RM (41_pixel_set_get.md R100). -/
  | psetM1RM (x y : BitVec 16) (c : Colour)
  /-- PSET.M1RL (41_pixel_set_get.md R101). -/
  | psetM1RL (x y : BitVec 16) (c : Colour)
  /-- PSET.M1C (41_pixel_set_get.md R102). -/
  | psetM1C (x y : BitVec 16) (c : Colour)
  /-- PSET.RGB565 (41_pixel_set_get.md R103). -/
  | psetRGB565 (x y : BitVec 16) (c : Colour)
  /-- PSET.G2R (41_pixel_set_get.md R104). -/
  | psetG2R (x y : BitVec 16) (c : Colour)
  /-- PSET.G4RM (41_pixel_set_get.md R105). -/
  | psetG4RM (x y : BitVec 16) (c : Colour)
  /-- PSET.G4RL (41_pixel_set_get.md R106). -/
  | psetG4RL (x y : BitVec 16) (c : Colour)
  /-- PSET.G8 (41_pixel_set_get.md R107). -/
  | psetG8 (x y : BitVec 16) (c : Colour)
  /-- PGET.M1RM (41_pixel_set_get.md R109). -/
  | pgetM1RM (x y : BitVec 16)
  /-- PGET.M1RL (41_pixel_set_get.md R110). -/
  | pgetM1RL (x y : BitVec 16)
  /-- PGET.M1C (41_pixel_set_get.md R111). -/
  | pgetM1C (x y : BitVec 16)
  /-- PGET.RGB565 (41_pixel_set_get.md R112). -/
  | pgetRGB565 (x y : BitVec 16)
  /-- PGET.G2R (41_pixel_set_get.md R113). -/
  | pgetG2R (x y : BitVec 16)
  /-- PGET.G4RM (41_pixel_set_get.md R114). -/
  | pgetG4RM (x y : BitVec 16)
  /-- PGET.G4RL (41_pixel_set_get.md R115). -/
  | pgetG4RL (x y : BitVec 16)
  /-- PGET.G8 (41_pixel_set_get.md R116). -/
  | pgetG8 (x y : BitVec 16)
  /-- PFILL.M1RM (42_pixel_fill.md R124). -/
  | pfillM1RM (x y w h : BitVec 16) (c : Colour)
  /-- PFILL.M1RL (42_pixel_fill.md R125). -/
  | pfillM1RL (x y w h : BitVec 16) (c : Colour)
  /-- PFILL.M1C (42_pixel_fill.md R126). -/
  | pfillM1C (x y w h : BitVec 16) (c : Colour)
  /-- PFILL.RGB565 (42_pixel_fill.md R127). -/
  | pfillRGB565 (x y w h : BitVec 16) (c : Colour)
  /-- PFILL.G2R (42_pixel_fill.md R128). -/
  | pfillG2R (x y w h : BitVec 16) (c : Colour)
  /-- PFILL.G4RM (42_pixel_fill.md R129). -/
  | pfillG4RM (x y w h : BitVec 16) (c : Colour)
  /-- PFILL.G4RL (42_pixel_fill.md R130). -/
  | pfillG4RL (x y w h : BitVec 16) (c : Colour)
  /-- PFILL.G8 (42_pixel_fill.md R131). -/
  | pfillG8 (x y w h : BitVec 16) (c : Colour)
  /-- GSIZE.1 (43_glyph_sampler.md R142). -/
  | gsize1
  /-- GSIZE.2 (43_glyph_sampler.md R143). -/
  | gsize2
  /-- GSIZE.4 (43_glyph_sampler.md R144). -/
  | gsize4
  /-- GSIZE.8 (43_glyph_sampler.md R145). -/
  | gsize8
  /-- GSAMP.1 (43_glyph_sampler.md R148). -/
  | gsamp1 (x y : BitVec 16)
  /-- GSAMP.2 (43_glyph_sampler.md R149). -/
  | gsamp2 (x y : BitVec 16)
  /-- GSAMP.4 (43_glyph_sampler.md R150). -/
  | gsamp4 (x y : BitVec 16)
  /-- GSAMP.8 (43_glyph_sampler.md R151). -/
  | gsamp8 (x y : BitVec 16)
  /-- BLEND.M1RM (44_alpha_blend.md R165). -/
  | blendM1RM (bpp : BitVec 8) (a : BitVec 8) (fg bg : Colour)
  /-- BLEND.M1RL (44_alpha_blend.md R166). -/
  | blendM1RL (bpp : BitVec 8) (a : BitVec 8) (fg bg : Colour)
  /-- BLEND.M1C (44_alpha_blend.md R167). -/
  | blendM1C (bpp : BitVec 8) (a : BitVec 8) (fg bg : Colour)
  /-- BLEND.RGB565 (44_alpha_blend.md R168). -/
  | blendRGB565 (bpp : BitVec 8) (a : BitVec 8) (fg bg : Colour)
  /-- BLEND.G2R (44_alpha_blend.md R169). -/
  | blendG2R (bpp : BitVec 8) (a : BitVec 8) (fg bg : Colour)
  /-- BLEND.G4RM (44_alpha_blend.md R170). -/
  | blendG4RM (bpp : BitVec 8) (a : BitVec 8) (fg bg : Colour)
  /-- BLEND.G4RL (44_alpha_blend.md R171). -/
  | blendG4RL (bpp : BitVec 8) (a : BitVec 8) (fg bg : Colour)
  /-- BLEND.G8 (44_alpha_blend.md R172). -/
  | blendG8 (bpp : BitVec 8) (a : BitVec 8) (fg bg : Colour)
deriving DecidableEq, Repr

end Sys2Proof
end

