-- ==== Sys2Proof/WellFormed.lean ====
section
/-! DEFINITION. Which instruction terms an encoding can carry. Every operand field is exactly as wide as its
operand, so the register number of RDREG is the one operand with a further bound (30_encoding.md R66). -/

namespace Sys2Proof

/-- RDREG names one of the registers 0 to 9 (30_encoding.md R66 case 3, 40_config.md R85). -/
abbrev RegisterNumber (reg : BitVec 8) : Prop := reg.toNat ≤ 9

/-- A well-formed instruction: what some legal command word stands for. A format code above 7 or a depth other
than 1, 2, 4, 8 is NOT ill-formed: 30_encoding.md R66 makes them value errors with faults of their own. -/
abbrev WellFormed (i : Instr) : Bool :=
  match i with
  | .rdreg reg => decide (RegisterNumber reg)
  | .cfgs .. | .cfgg .. => true
  | .psetM1RM .. | .psetM1RL .. | .psetM1C .. | .psetRGB565 .. => true
  | .psetG2R .. | .psetG4RM .. | .psetG4RL .. | .psetG8 .. => true
  | .pgetM1RM .. | .pgetM1RL .. | .pgetM1C .. | .pgetRGB565 .. => true
  | .pgetG2R .. | .pgetG4RM .. | .pgetG4RL .. | .pgetG8 .. => true
  | .pfillM1RM .. | .pfillM1RL .. | .pfillM1C .. | .pfillRGB565 .. => true
  | .pfillG2R .. | .pfillG4RM .. | .pfillG4RL .. | .pfillG8 .. => true
  | .gsize1 | .gsize2 | .gsize4 | .gsize8 => true
  | .gsamp1 .. | .gsamp2 .. | .gsamp4 .. | .gsamp8 .. => true
  | .blendM1RM .. | .blendM1RL .. | .blendM1C .. | .blendRGB565 .. => true
  | .blendG2R .. | .blendG4RM .. | .blendG4RL .. | .blendG8 .. => true

end Sys2Proof
end

