-- ==== Sys2Proof/Decode.lean ====
section
/-! DEFINITION. Decoding, total on every 128-bit word: the word to one of nine mnemonics or an illegal encoding,
rejected by name (30_encoding.md R60 to R66), then the mnemonic and the selector registers to one of the 43
instructions (R64). After it the encoder, from the same tables, and the entry point of the host. -/

namespace Sys2Proof

/-! ## Formats and depths by their codes -/

/-- The format of a 3-bit format code: every value is a legal one (00_scope.md R8, 10_state.md R13). -/
def PixFormat.ofCode (code : BitVec 3) : PixFormat :=
  if code = 0 then .m1rm else if code = 1 then .m1rl else if code = 2 then .m1c
  else if code = 3 then .rgb565 else if code = 4 then .g2r else if code = 5 then .g4rm
  else if code = 6 then .g4rl else .g8

/-- The code of a format (00_scope.md R8). -/
def PixFormat.code (f : PixFormat) : BitVec 3 :=
  match f with
  | .m1rm => 0 | .m1rl => 1 | .m1c => 2 | .rgb565 => 3 | .g2r => 4 | .g4rm => 5 | .g4rl => 6 | .g8 => 7

/-- The depth named by a number of bits per pixel: 1, 2, 4 or 8, and nothing else (10_state.md R17). -/
def Depth.ofBits (bits : Nat) : Option Depth :=
  if bits = 1 then some .d1 else if bits = 2 then some .d2 else if bits = 4 then some .d4
  else if bits = 8 then some .d8 else none

/-- Bits per pixel of a depth. -/
def Depth.bits (d : Depth) : Nat :=
  match d with
  | .d1 => 1 | .d2 => 2 | .d4 => 4 | .d8 => 8

/-! ## The eight fields of a command word -/

/-- The eight fixed fields, the same for every command (30_encoding.md R60). -/
structure CommandFields where
  /-- `C[7:0]`, opcode -/
  op : BitVec 8
  /-- `C[15:8]`, selector -/
  sel : BitVec 8
  /-- `C[31:16]`, colour or coverage -/
  c : BitVec 16
  /-- `C[47:32]`, column, stride, glyph width or foreground -/
  x : BitVec 16
  /-- `C[63:48]`, row, glyph height or background -/
  y : BitVec 16
  /-- `C[79:64]`, rectangle width, or low half of the glyph offset -/
  w : BitVec 16
  /-- `C[95:80]`, rectangle height, or high half of the glyph offset -/
  h : BitVec 16
  /-- `C[127:96]`, a buffer length -/
  ext : BitVec 32
deriving DecidableEq, Repr

/-- The fields of a word (30_encoding.md R60). -/
def splitWord (w : Word) : CommandFields where
  op := w.extractLsb' 0 8
  sel := w.extractLsb' 8 8
  c := w.extractLsb' 16 16
  x := w.extractLsb' 32 16
  y := w.extractLsb' 48 16
  w := w.extractLsb' 64 16
  h := w.extractLsb' 80 16
  ext := w.extractLsb' 96 32

/-- The word with the given fields (30_encoding.md R60). -/
def joinFields (f : CommandFields) : Word :=
  f.ext ++ f.h ++ f.w ++ f.y ++ f.x ++ f.c ++ f.sel ++ f.op

/-! ## Decoding to a mnemonic -/

/-- What the decoder finds in a legal word: one of nine mnemonics with its operands (30_encoding.md R63, R66). -/
inductive Command where
  | cfgs (fmt : BitVec 8) (stride : BitVec 16) (len : BitVec 32)
  | cfgg (bpp : BitVec 8) (width height : BitVec 8) (offset len : BitVec 32)
  | rdreg (reg : BitVec 8)
  | pset (x y : BitVec 16) (c : Colour)
  | pget (x y : BitVec 16)
  | pfill (x y w h : BitVec 16) (c : Colour)
  | gsize
  | gsamp (x y : BitVec 16)
  | blend (bpp : BitVec 8) (a : BitVec 8) (fg bg : Colour)
deriving DecidableEq, Repr

/-- Why a word stands for no instruction. The first three are the illegal encodings of 30_encoding.md R66, and all
the machine makes of them is ILLEGAL_CMD. -/
inductive Reject where
  /-- R66 case 1: `op` is not one of the nine opcodes. -/
  | badOpcode
  /-- R66 case 2: a must-be-zero bit of the command's format is 1. -/
  | mustBeZero
  /-- R66 case 3: RDREG with `sel > 9`. -/
  | badRegister
  /-- Legal word, but G_BPP holds none of 1, 2, 4, 8, so it selects no variant of GSIZE or GSAMP: with G_VALID = 1
  no run reaches such a state (10_state.md R22). -/
  | noVariant
deriving DecidableEq, Repr

/-- Accept a command when its format's must-be-zero bits are zero (30_encoding.md R61, R66 case 2). -/
def acceptIf (zeros : Bool) (c : Command) : Except Reject Command :=
  if zeros then .ok c else .error .mustBeZero

/-- The nine opcodes and, per format, the fields used and the bits that must be zero (30_encoding.md R61, R63);
the glyph offset is `h ++ w` (R62). -/
def decodeFields (f : CommandFields) : Except Reject Command :=
  if f.op = 0x01#8 then
    acceptIf (f.c == 0 && f.y == 0 && f.w == 0 && f.h == 0) (.cfgs f.sel f.x f.ext)
  else if f.op = 0x02#8 then
    acceptIf (f.c == 0 && f.x.extractLsb' 8 8 == 0 && f.y.extractLsb' 8 8 == 0)
      (.cfgg f.sel (f.x.extractLsb' 0 8) (f.y.extractLsb' 0 8) (f.h ++ f.w) f.ext)
  else if f.op = 0x03#8 then
    if f.c == 0 && f.x == 0 && f.y == 0 && f.w == 0 && f.h == 0 && f.ext == 0 then
      if RegisterNumber f.sel then .ok (.rdreg f.sel) else .error .badRegister
    else .error .mustBeZero
  else if f.op = 0x10#8 then
    acceptIf (f.sel == 0 && f.w == 0 && f.h == 0 && f.ext == 0) (.pset f.x f.y f.c)
  else if f.op = 0x11#8 then
    acceptIf (f.sel == 0 && f.c == 0 && f.w == 0 && f.h == 0 && f.ext == 0) (.pget f.x f.y)
  else if f.op = 0x12#8 then
    acceptIf (f.sel == 0 && f.ext == 0) (.pfill f.x f.y f.w f.h f.c)
  else if f.op = 0x20#8 then
    acceptIf (f.sel == 0 && f.c == 0 && f.x == 0 && f.y == 0 && f.w == 0 && f.h == 0 && f.ext == 0) .gsize
  else if f.op = 0x21#8 then
    acceptIf (f.sel == 0 && f.c == 0 && f.w == 0 && f.h == 0 && f.ext == 0) (.gsamp f.x f.y)
  else if f.op = 0x30#8 then
    acceptIf (f.c.extractLsb' 8 8 == 0 && f.w == 0 && f.h == 0 && f.ext == 0)
      (.blend f.sel (f.c.extractLsb' 0 8) f.x f.y)
  else .error .badOpcode

/-- The mnemonic and operands of a command word, or why it is illegal: no state is consulted (30_encoding.md R64,
60_exceptions.md R183 item 1). -/
def decodeCommand (w : Word) : Except Reject Command :=
  decodeFields (splitWord w)

/-! ## Selecting the variant -/

/-- PSET in the variant of a format (30_encoding.md R64). -/
def psetVariant (f : PixFormat) (x y : BitVec 16) (c : Colour) : Instr :=
  match f with
  | .m1rm => .psetM1RM x y c
  | .m1rl => .psetM1RL x y c
  | .m1c => .psetM1C x y c
  | .rgb565 => .psetRGB565 x y c
  | .g2r => .psetG2R x y c
  | .g4rm => .psetG4RM x y c
  | .g4rl => .psetG4RL x y c
  | .g8 => .psetG8 x y c

/-- PGET in the variant of a format (30_encoding.md R64). -/
def pgetVariant (f : PixFormat) (x y : BitVec 16) : Instr :=
  match f with
  | .m1rm => .pgetM1RM x y
  | .m1rl => .pgetM1RL x y
  | .m1c => .pgetM1C x y
  | .rgb565 => .pgetRGB565 x y
  | .g2r => .pgetG2R x y
  | .g4rm => .pgetG4RM x y
  | .g4rl => .pgetG4RL x y
  | .g8 => .pgetG8 x y

/-- PFILL in the variant of a format (30_encoding.md R64). -/
def pfillVariant (f : PixFormat) (x y w h : BitVec 16) (c : Colour) : Instr :=
  match f with
  | .m1rm => .pfillM1RM x y w h c
  | .m1rl => .pfillM1RL x y w h c
  | .m1c => .pfillM1C x y w h c
  | .rgb565 => .pfillRGB565 x y w h c
  | .g2r => .pfillG2R x y w h c
  | .g4rm => .pfillG4RM x y w h c
  | .g4rl => .pfillG4RL x y w h c
  | .g8 => .pfillG8 x y w h c

/-- BLEND in the variant of a format (30_encoding.md R64). -/
def blendVariant (f : PixFormat) (bpp a : BitVec 8) (fg bg : Colour) : Instr :=
  match f with
  | .m1rm => .blendM1RM bpp a fg bg
  | .m1rl => .blendM1RL bpp a fg bg
  | .m1c => .blendM1C bpp a fg bg
  | .rgb565 => .blendRGB565 bpp a fg bg
  | .g2r => .blendG2R bpp a fg bg
  | .g4rm => .blendG4RM bpp a fg bg
  | .g4rl => .blendG4RL bpp a fg bg
  | .g8 => .blendG8 bpp a fg bg

/-- GSIZE in the variant of a depth (30_encoding.md R64). -/
def gsizeVariant (d : Depth) : Instr :=
  match d with
  | .d1 => .gsize1
  | .d2 => .gsize2
  | .d4 => .gsize4
  | .d8 => .gsize8

/-- GSAMP in the variant of a depth (30_encoding.md R64). -/
def gsampVariant (d : Depth) (x y : BitVec 16) : Instr :=
  match d with
  | .d1 => .gsamp1 x y
  | .d2 => .gsamp2 x y
  | .d4 => .gsamp4 x y
  | .d8 => .gsamp8 x y

/-- The instruction a command stands for when the selector registers hold `fmt` (PF_FORMAT) and `bpp` (G_BPP):
30_encoding.md R64. -/
def selectVariant (fmt : BitVec 3) (bpp : BitVec 4) (c : Command) : Except Reject Instr :=
  match c with
  | .cfgs f stride len => .ok (.cfgs f stride len)
  | .cfgg b width height offset len => .ok (.cfgg b width height offset len)
  | .rdreg reg => .ok (.rdreg reg)
  | .pset x y c => .ok (psetVariant (PixFormat.ofCode fmt) x y c)
  | .pget x y => .ok (pgetVariant (PixFormat.ofCode fmt) x y)
  | .pfill x y w h c => .ok (pfillVariant (PixFormat.ofCode fmt) x y w h c)
  | .gsize =>
    match Depth.ofBits bpp.toNat with
    | some d => .ok (gsizeVariant d)
    | none => .error .noVariant
  | .gsamp x y =>
    match Depth.ofBits bpp.toNat with
    | some d => .ok (gsampVariant d x y)
    | none => .error .noVariant
  | .blend b a fg bg => .ok (blendVariant (PixFormat.ofCode fmt) b a fg bg)

/-- The decoder: the instruction a command word stands for when the selector registers hold `fmt` and `bpp`, or why
it stands for none. -/
def decode (fmt : BitVec 3) (bpp : BitVec 4) (w : Word) : Except Reject Instr :=
  match decodeCommand w with
  | .ok c => selectVariant fmt bpp c
  | .error r => .error r

/-! ## The encoder -/

/-- The command an instruction is a variant of: the dotted names assemble to the word of the undotted mnemonic
(30_encoding.md R69). -/
def Instr.command (i : Instr) : Command :=
  match i with
  | .cfgs fmt stride len => .cfgs fmt stride len
  | .cfgg bpp width height offset len => .cfgg bpp width height offset len
  | .rdreg reg => .rdreg reg
  | .psetM1RM x y c => .pset x y c
  | .psetM1RL x y c => .pset x y c
  | .psetM1C x y c => .pset x y c
  | .psetRGB565 x y c => .pset x y c
  | .psetG2R x y c => .pset x y c
  | .psetG4RM x y c => .pset x y c
  | .psetG4RL x y c => .pset x y c
  | .psetG8 x y c => .pset x y c
  | .pgetM1RM x y => .pget x y
  | .pgetM1RL x y => .pget x y
  | .pgetM1C x y => .pget x y
  | .pgetRGB565 x y => .pget x y
  | .pgetG2R x y => .pget x y
  | .pgetG4RM x y => .pget x y
  | .pgetG4RL x y => .pget x y
  | .pgetG8 x y => .pget x y
  | .pfillM1RM x y w h c => .pfill x y w h c
  | .pfillM1RL x y w h c => .pfill x y w h c
  | .pfillM1C x y w h c => .pfill x y w h c
  | .pfillRGB565 x y w h c => .pfill x y w h c
  | .pfillG2R x y w h c => .pfill x y w h c
  | .pfillG4RM x y w h c => .pfill x y w h c
  | .pfillG4RL x y w h c => .pfill x y w h c
  | .pfillG8 x y w h c => .pfill x y w h c
  | .gsize1 => .gsize
  | .gsize2 => .gsize
  | .gsize4 => .gsize
  | .gsize8 => .gsize
  | .gsamp1 x y => .gsamp x y
  | .gsamp2 x y => .gsamp x y
  | .gsamp4 x y => .gsamp x y
  | .gsamp8 x y => .gsamp x y
  | .blendM1RM bpp a fg bg => .blend bpp a fg bg
  | .blendM1RL bpp a fg bg => .blend bpp a fg bg
  | .blendM1C bpp a fg bg => .blend bpp a fg bg
  | .blendRGB565 bpp a fg bg => .blend bpp a fg bg
  | .blendG2R bpp a fg bg => .blend bpp a fg bg
  | .blendG4RM bpp a fg bg => .blend bpp a fg bg
  | .blendG4RL bpp a fg bg => .blend bpp a fg bg
  | .blendG8 bpp a fg bg => .blend bpp a fg bg

/-- Whether the selector registers pick this variant: the row's "selector" key (30_encoding.md R64). -/
def Instr.selectedBy (i : Instr) (fmt : BitVec 3) (bpp : BitVec 4) : Bool :=
  match i with
  | .cfgs .. => true
  | .cfgg .. => true
  | .rdreg .. => true
  | .psetM1RM .. => fmt == 0
  | .pgetM1RM .. => fmt == 0
  | .pfillM1RM .. => fmt == 0
  | .blendM1RM .. => fmt == 0
  | .psetM1RL .. => fmt == 1
  | .pgetM1RL .. => fmt == 1
  | .pfillM1RL .. => fmt == 1
  | .blendM1RL .. => fmt == 1
  | .psetM1C .. => fmt == 2
  | .pgetM1C .. => fmt == 2
  | .pfillM1C .. => fmt == 2
  | .blendM1C .. => fmt == 2
  | .psetRGB565 .. => fmt == 3
  | .pgetRGB565 .. => fmt == 3
  | .pfillRGB565 .. => fmt == 3
  | .blendRGB565 .. => fmt == 3
  | .psetG2R .. => fmt == 4
  | .pgetG2R .. => fmt == 4
  | .pfillG2R .. => fmt == 4
  | .blendG2R .. => fmt == 4
  | .psetG4RM .. => fmt == 5
  | .pgetG4RM .. => fmt == 5
  | .pfillG4RM .. => fmt == 5
  | .blendG4RM .. => fmt == 5
  | .psetG4RL .. => fmt == 6
  | .pgetG4RL .. => fmt == 6
  | .pfillG4RL .. => fmt == 6
  | .blendG4RL .. => fmt == 6
  | .psetG8 .. => fmt == 7
  | .pgetG8 .. => fmt == 7
  | .pfillG8 .. => fmt == 7
  | .blendG8 .. => fmt == 7
  | .gsize1 => bpp == 1
  | .gsamp1 .. => bpp == 1
  | .gsize2 => bpp == 2
  | .gsamp2 .. => bpp == 2
  | .gsize4 => bpp == 4
  | .gsamp4 .. => bpp == 4
  | .gsize8 => bpp == 8
  | .gsamp8 .. => bpp == 8

/-- The fields of a command, unused ones zero (30_encoding.md R61, R62). -/
def Command.fields (c : Command) : CommandFields :=
  match c with
  | .cfgs fmt stride len => ⟨0x01, fmt, 0, stride, 0, 0, 0, len⟩
  | .cfgg bpp width height offset len =>
    ⟨0x02, bpp, 0, width.setWidth 16, height.setWidth 16, offset.extractLsb' 0 16, offset.extractLsb' 16 16, len⟩
  | .rdreg reg => ⟨0x03, reg, 0, 0, 0, 0, 0, 0⟩
  | .pset x y c => ⟨0x10, 0, c, x, y, 0, 0, 0⟩
  | .pget x y => ⟨0x11, 0, 0, x, y, 0, 0, 0⟩
  | .pfill x y w h c => ⟨0x12, 0, c, x, y, w, h, 0⟩
  | .gsize => ⟨0x20, 0, 0, 0, 0, 0, 0, 0⟩
  | .gsamp x y => ⟨0x21, 0, 0, x, y, 0, 0, 0⟩
  | .blend bpp a fg bg => ⟨0x30, bpp, a.setWidth 16, fg, bg, 0, 0, 0⟩

/-- The word of a command. -/
def encodeCommand (c : Command) : Word :=
  joinFields c.fields

/-- The word of an instruction. -/
def encode (i : Instr) : Word :=
  encodeCommand i.command

/-! ## The table of matches and masks -/

/-- The nine mnemonics (30_encoding.md R63). -/
inductive Mnemonic where
  | cfgs | cfgg | rdreg | pset | pget | pfill | gsize | gsamp | blend
deriving DecidableEq, Repr

/-- The mnemonic of a command. -/
def Command.mnemonic (c : Command) : Mnemonic :=
  match c with
  | .cfgs .. => .cfgs | .cfgg .. => .cfgg | .rdreg .. => .rdreg
  | .pset .. => .pset | .pget .. => .pget | .pfill .. => .pfill
  | .gsize => .gsize | .gsamp .. => .gsamp | .blend .. => .blend

/-- The `match` of a mnemonic, its opcode in bits 7 to 0 (30_encoding.md R63, R65). -/
def Mnemonic.matchWord (m : Mnemonic) : Word :=
  match m with
  | .cfgs => 0x00000000000000000000000000000001
  | .cfgg => 0x00000000000000000000000000000002
  | .rdreg => 0x00000000000000000000000000000003
  | .pset => 0x00000000000000000000000000000010
  | .pget => 0x00000000000000000000000000000011
  | .pfill => 0x00000000000000000000000000000012
  | .gsize => 0x00000000000000000000000000000020
  | .gsamp => 0x00000000000000000000000000000021
  | .blend => 0x00000000000000000000000000000030

/-- The `mask` of a mnemonic: its opcode and must-be-zero bits (30_encoding.md R65). -/
def Mnemonic.maskWord (m : Mnemonic) : Word :=
  match m with
  | .cfgs => 0x00000000FFFFFFFFFFFF0000FFFF00FF
  | .cfgg => 0x0000000000000000FF00FF00FFFF00FF
  | .rdreg => 0xFFFFFFFFFFFFFFFFFFFFFFFFFFFF00FF
  | .pset => 0xFFFFFFFFFFFFFFFF000000000000FFFF
  | .pget => 0xFFFFFFFFFFFFFFFF00000000FFFFFFFF
  | .pfill => 0xFFFFFFFF00000000000000000000FFFF
  | .gsize => 0xFFFFFFFFFFFFFFFFFFFFFFFFFFFFFFFF
  | .gsamp => 0xFFFFFFFFFFFFFFFF00000000FFFFFFFF
  | .blend => 0xFFFFFFFFFFFFFFFF00000000FF0000FF

/-! ## The host's entry point -/

/-- The command word whose low `nbits` bits are those of `w` and whose other bits are zero. A command word is a bit
vector and has no byte order (20_memory.md R44), so there is nothing to lay out. -/
def tableWord (nbits w : Nat) : Word :=
  BitVec.ofNat 128 (w % 2 ^ nbits)

/-- The instruction the decoder reads from a table row's word. Rows that share an opcode share match and mask (R64)
and differ in a selector register only, which the word does not hold: the variant answered is the one that the
selectors of the reset state pick (log 2). -/
def decodeTableWord (nbits w : Nat) : Option Instr :=
  match decode Config.resetFormat Config.resetBpp (tableWord nbits w) with
  | .ok i => some i
  | .error _ => none

end Sys2Proof
end

