-- ==== Sys2Proof/Machine/State.lean ====
section
/-! DEFINITION. The state of PXB as plain data, the reasons it can stop, and the reset state. -/

namespace Sys2Proof.Machine

/-- A byte memory, PIX or GLY (20_memory.md R40): (offset, byte) pairs with offsets strictly rising and no entry
equal to what an unlisted offset reads as (Ops.lean). -/
abbrev Memory := List Host.Cell

/-- What the outside does to PXB, one move a step: the command port (30_encoding.md R68), the host's writes between
commands (20_memory.md R52) and reset (70_reset_and_hazards.md R200, R201). Log 1, log 14. -/
inductive HostMove where
  /-- The host presents a command word. -/
  | command (w : Word)
  /-- The host writes one byte of pixel memory, between commands. -/
  | writePix (offset : BitVec 32) (b : Byte)
  /-- The host writes one byte of glyph memory, between commands. -/
  | writeGly (offset : BitVec 32) (b : Byte)
  /-- The platform raises reset while PXB is idle. -/
  | reset
  /-- The host presents a command word and the platform raises reset while it executes (log 8). -/
  | resetDuring (w : Word)
deriving DecidableEq, Repr

/-- The fault causes, codes 1 to 8 (60_exceptions.md R180). They are reported in the response word and recorded in
FAULT; none of them stops the machine. -/
inductive Cause where
  | illegalCmd | badFormat | badBpp | notConfigured | pixAddr | glyAddr | glyRange | covRange
deriving DecidableEq, Repr

/-- Why the MODEL stops. PXB itself never stops (60_exceptions.md R182): its faults are responses, see `Cause`. -/
inductive Fault where
  /-- Raised by the port (Machine/Port.lean) when a GSIZE or GSAMP word arrives with G_VALID = 1 and a G_BPP that is
  none of 1, 2, 4, 8: no variant is selected. 10_state.md R22 rules such a state out of every run. Safe: the model
  stops where the spec gives no meaning (log 7). -/
  | glyphDepth
deriving DecidableEq, Repr

/-- Why the model gives an instruction no meaning. -/
inductive Refusal where
  /-- An instruction rejected by name: raised only by an arm of `exec` that has no meaning yet, and there is none.
  Safe. -/
  | notModelled (mnemonic : String)
deriving DecidableEq, Repr

/-- The state of PXB: the eleven registers and two memories of 10_state.md R10, the two ports, one platform
parameter, and three fields of the model's own. -/
structure State where
  /-- PF_FORMAT, register 0 (10_state.md R13). -/
  pfFormat : BitVec 3
  /-- PF_STRIDE, register 1 (10_state.md R14). -/
  pfStride : BitVec 17
  /-- PF_LEN, register 2 (10_state.md R15). -/
  pfLen : BitVec 32
  /-- PF_VALID, bit 0 of STATUS (10_state.md R16, R23). -/
  pfValid : Bool
  /-- G_BPP, register 3 (10_state.md R17). -/
  gBpp : BitVec 4
  /-- G_WIDTH, register 4 (10_state.md R18). -/
  gWidth : BitVec 8
  /-- G_HEIGHT, register 5 (10_state.md R18). -/
  gHeight : BitVec 8
  /-- G_OFFSET, register 6 (10_state.md R19). -/
  gOffset : BitVec 32
  /-- G_LEN, register 7 (10_state.md R20). -/
  gLen : BitVec 32
  /-- G_VALID, bit 1 of STATUS (10_state.md R21, R23). -/
  gValid : Bool
  /-- FAULT, register 9 (10_state.md R24). -/
  faultReg : BitVec 32
  /-- PIX, pixel memory (10_state.md R25). -/
  pix : Memory
  /-- GLY, glyph memory (10_state.md R25). -/
  gly : Memory
  /-- What the outside is still to do, oldest first (10_state.md R12, 30_encoding.md R68; log 1). -/
  inbox : List HostMove
  /-- The responses produced, oldest first (30_encoding.md R67; log 1). -/
  outbox : List Response
  /-- RGB565_BIG_ENDIAN, the open parameter of 20_memory.md R44: changed by no step (log 6). -/
  bigEndian : Bool
  /-- The model's own: a CFGS has succeeded since reset (10_state.md R28; log 4). -/
  pfWritten : Bool
  /-- The model's own: a CFGG has succeeded since reset (10_state.md R28; log 4). -/
  gWritten : Bool
  /-- The model's own: how many free values have been drawn (log 4). -/
  draws : Nat
deriving DecidableEq, Repr

/-- The state after reset (10_state.md R28): both valid bits and FAULT are zero. The eight context registers, which
the spec leaves unspecified, hold the values of log 3, and nothing reads them before they are configured. The
memories list nothing (log 5), no move is pending and no response has been produced (log 1). -/
def State.reset : State where
  pfFormat := Config.resetFormat
  pfStride := 0
  pfLen := 0
  pfValid := false
  gBpp := Config.resetBpp
  gWidth := 0
  gHeight := 0
  gOffset := 0
  gLen := 0
  gValid := false
  faultReg := 0
  pix := []
  gly := []
  inbox := []
  outbox := []
  bigEndian := false
  pfWritten := false
  gWritten := false
  draws := 0

end Sys2Proof.Machine
end

