-- ==== Sys2Proof/Machine/Flags.lean ====
section
/-! DEFINITION. The condition bits of PXB: the two valid bits seen through STATUS, and the sticky bits of FAULT. PXB
has no carry, zero, negative or overflow flag (10_state.md R23). -/

namespace Sys2Proof.Machine

/-- The code of a fault, 1 to 8 (60_exceptions.md R180). -/
def Cause.code (c : Cause) : BitVec 4 :=
  match c with
  | .illegalCmd => 1 | .badFormat => 2 | .badBpp => 3 | .notConfigured => 4
  | .pixAddr => 5 | .glyAddr => 6 | .glyRange => 7 | .covRange => 8

/-- The bit of FAULT that records a fault: bit `code` (10_state.md R24). -/
def Cause.bit (c : Cause) : BitVec 32 :=
  1#32 <<< c.code.toNat

/-- FAULT with a cause recorded; the other bits are sticky (10_state.md R24). -/
def recordFault (reg : BitVec 32) (c : Cause) : BitVec 32 :=
  reg ||| c.bit

/-- STATUS, register 8: bit 0 PF_VALID, bit 1 G_VALID, the rest zero (10_state.md R23). -/
def statusWord (pfValid gValid : Bool) : BitVec 32 :=
  (BitVec.ofBool gValid ++ BitVec.ofBool pfValid).setWidth 32

end Sys2Proof.Machine
end

