-- ==== Sys2Proof/Machine/Ops.lean ====
section
/-! DEFINITION. The named operations over the memories and the state that every meaning is built from: reading and
writing a byte, answering a command, raising a fault, loading and invalidating a context, reset. -/

namespace Sys2Proof.Machine

/-! ## Memory -/

/-- What an offset that the memory does not list reads as. DESIGN CHOICE, log 5: the spec says only that the host's
buffers hold whatever they hold (10_state.md R28); unsafe. -/
def unlistedByte : Byte := 0x00

/-- The byte at an offset; a read has no side effect (20_memory.md R56). -/
def Memory.read (m : Memory) (a : Nat) : Byte :=
  match m with
  | [] => unlistedByte
  | (k, b) :: rest => if k = a then b else Memory.read rest a

/-- The memory without an offset. -/
def Memory.erase (m : Memory) (a : Nat) : Memory :=
  match m with
  | [] => []
  | (k, b) :: rest => if k = a then Memory.erase rest a else (k, b) :: Memory.erase rest a

/-- A cell put before the first greater offset. -/
def Memory.insert (m : Memory) (a : Nat) (b : Byte) : Memory :=
  match m with
  | [] => [(a, b)]
  | (k, v) :: rest => if a < k then (a, b) :: (k, v) :: rest else (k, v) :: Memory.insert rest a b

/-- Writing one byte changes that byte only (20_memory.md R56). Writing what an unlisted offset reads as removes the
entry, so that equal memories are equal lists. -/
def Memory.write (m : Memory) (a : Nat) (b : Byte) : Memory :=
  if b = unlistedByte then Memory.erase m a else Memory.insert (Memory.erase m a) a b

/-- The canonical form: offsets strictly rising, no entry equal to what an unlisted offset reads as. -/
def Memory.wf (m : Memory) : Bool :=
  match m with
  | [] => true
  | (_, b) :: [] => b != unlistedByte
  | (k, b) :: (k', b') :: rest =>
    b != unlistedByte && decide (k < k') && Memory.wf ((k', b') :: rest)

/-- Every listed offset is below 2^32, the widest offset a buffer can have (20_memory.md R40). -/
def Memory.bounded (m : Memory) : Bool :=
  m.all fun cell => decide (cell.1 < 2 ^ 32)

/-- A memory that takes some bytes from `new` and the others from `old`: `pick` says which offsets are new. -/
def Memory.mix (pick : Nat → Bool) (old new : Memory) : Memory :=
  (new.map Prod.fst ++ old.map Prod.fst).foldl
    (fun m a => m.write a (if pick a then new.read a else old.read a)) old

/-- Applies `f` for `lo`, `lo + 1`, up to `lo + n - 1`, in that order: the `for` of the spec's pseudocode. -/
def forRange {α : Type} (lo n : Nat) (f : Nat → α → α) (a : α) : α :=
  match n with
  | 0 => a
  | k + 1 => forRange (lo + 1) k f (f lo a)

/-! ## Answering a command -/

/-- The response word: value in bits 31 to 0, status in bits 35 to 32, the rest zero (30_encoding.md R67). -/
def responseWord (status : BitVec 4) (value : BitVec 32) : Response :=
  (0#28 ++ status ++ value : BitVec 64)

/-- `respond(v)`: the command ends with status 0 and the value `v` (00_scope.md R7). -/
def State.respond (s : State) (value : BitVec 32) : State :=
  { s with outbox := s.outbox ++ [responseWord 0 value] }

/-- `raise Fault(code)`: TAKING A FAULT. The response is `code` with value 0 and the code's bit of FAULT is set, and
that is all: no state is saved, no mode or mask changes and control goes nowhere (60_exceptions.md R182). The two
faults that also clear a valid bit do it through `invalidateSurface` and `invalidateGlyph`. There is no return from a
fault: PXB is ready for the next command at once (R182). -/
def State.raise (s : State) (c : Cause) : State :=
  { s with faultReg := recordFault s.faultReg c, outbox := s.outbox ++ [responseWord c.code 0] }

/-! ## The contexts -/

/-- What a successful CFGS writes (40_config.md R80). -/
def State.setSurface (s : State) (format : BitVec 3) (stride : BitVec 17) (len : BitVec 32) : State :=
  { s with pfFormat := format, pfStride := stride, pfLen := len, pfValid := true, pfWritten := true }

/-- What a CFGS that names no format does to the surface context (40_config.md R81). -/
def State.invalidateSurface (s : State) : State :=
  { s with pfValid := false }

/-- What a successful CFGG writes (40_config.md R83). -/
def State.setGlyph (s : State) (bpp : BitVec 4) (width height : BitVec 8) (offset len : BitVec 32) : State :=
  { s with gBpp := bpp, gWidth := width, gHeight := height, gOffset := offset, gLen := len, gValid := true,
           gWritten := true }

/-- What a CFGG that names no depth does to the glyph context (40_config.md R84). -/
def State.invalidateGlyph (s : State) : State :=
  { s with gValid := false }

/-! ## Memories, moves and free values -/

/-- Pixel memory replaced. -/
def State.setPix (s : State) (m : Memory) : State :=
  { s with pix := m }

/-- Glyph memory replaced: only the host does it (20_memory.md R40). -/
def State.setGly (s : State) (m : Memory) : State :=
  { s with gly := m }

/-- The moves still to come replaced. -/
def State.setInbox (s : State) (moves : List HostMove) : State :=
  { s with inbox := moves }

/-- One more free value has been drawn (log 4). -/
def State.countDraw (s : State) : State :=
  { s with draws := s.draws + 1 }

/-! ## Reset -/

/-- The reset event (10_state.md R28, 70_reset_and_hazards.md R200): valid bits and FAULT zero, context registers
unspecified (the values of log 3, unreadable until configured), memories untouched. The ports and the platform
parameter are not registers and stay. -/
def State.resetRegisters (s : State) : State :=
  { s with
    pfFormat := State.reset.pfFormat, pfStride := State.reset.pfStride, pfLen := State.reset.pfLen
    pfValid := State.reset.pfValid, gBpp := State.reset.gBpp, gWidth := State.reset.gWidth
    gHeight := State.reset.gHeight, gOffset := State.reset.gOffset, gLen := State.reset.gLen
    gValid := State.reset.gValid, faultReg := State.reset.faultReg
    pfWritten := State.reset.pfWritten, gWritten := State.reset.gWritten }

/-- Reset during a command that would have left pixel memory as `done`: no response, registers reset, each byte the
command could have written old or new by a free bit (70_reset_and_hazards.md R201; log 8). -/
def State.abandon (s : State) (done : Memory) : State :=
  ((s.resetRegisters).setPix (Memory.mix (Config.freeBit s.draws) s.pix done)).countDraw

/-! ## The host between commands -/

/-- The host writes a byte of pixel memory (20_memory.md R52). -/
def State.hostWritePix (s : State) (offset : BitVec 32) (b : Byte) : State :=
  s.setPix (s.pix.write offset.toNat b)

/-- The host writes a byte of glyph memory (20_memory.md R52). -/
def State.hostWriteGly (s : State) (offset : BitVec 32) (b : Byte) : State :=
  s.setGly (s.gly.write offset.toNat b)

end Sys2Proof.Machine
end

