-- ==== Sys2Proof/Machine/Operands.lean ====
section
/-! DEFINITION. What operands stand for: the constants of a format and a depth, where a pixel lives in pixel memory,
where a sample lives in glyph memory, and how each is read and written. All arithmetic is on naturals and nothing
wraps (00_scope.md R7, 40_config.md R87); `a >> n` is `a / 2^n` by R7, and `x & 7`, `x & 3`, `x & 1` are the
remainders by 8, 4, 2. -/

namespace Sys2Proof.Machine

/-! ## Arithmetic of the notation -/

/-- `ceil_div(a, b)` (00_scope.md R7). -/
def ceilDiv (a b : Nat) : Nat :=
  (a + b - 1) / b

/-- `roundup(v, g)` (00_scope.md R7). -/
def roundUp (v g : Nat) : Nat :=
  ceilDiv v g * g

/-! ## Constants of a format and of a depth -/

/-- `bpp(f)`, bits per pixel (00_scope.md R8). -/
def formatBits (f : PixFormat) : Nat :=
  match f with
  | .m1rm => 1 | .m1rl => 1 | .m1c => 1 | .rgb565 => 16 | .g2r => 2 | .g4rm => 4 | .g4rl => 4 | .g8 => 8

/-- `ppb(f)`, pixels per byte; RGB565 has none (00_scope.md R8). -/
def formatPixelsPerByte (f : PixFormat) : Option Nat :=
  match f with
  | .m1rm => some 8 | .m1rl => some 8 | .m1c => some 8 | .rgb565 => none
  | .g2r => some 4 | .g4rm => some 2 | .g4rl => some 2 | .g8 => some 1

/-- `gran(f)`, stride granularity in pixels (00_scope.md R8, 40_config.md R80). -/
def formatGranularity (f : PixFormat) : Nat :=
  match f with
  | .m1rm => 8 | .m1rl => 8 | .m1c => 8 | .rgb565 => 1 | .g2r => 4 | .g4rm => 2 | .g4rl => 2 | .g8 => 1

/-- `cmax(f)`, the largest colour (00_scope.md R8). -/
def formatMax (f : PixFormat) : Nat :=
  2 ^ formatBits f - 1

/-- `amax`, the largest coverage of a depth (44_alpha_blend.md R160). -/
def coverageMax (d : Depth) : Nat :=
  2 ^ d.bits - 1

/-! ## Bits of a byte, bytes of a cell -/

/-- `put(old, shift, fmask, v)` (41_pixel_set_get.md R90 item 4). -/
def putBits (old : Byte) (shift fmask : Nat) (v : Colour) : Byte :=
  (old &&& ~~~(BitVec.ofNat 8 fmask <<< shift)) ||| ((v.setWidth 8 &&& BitVec.ofNat 8 fmask) <<< shift)

/-- `take(b, shift, fmask)` (41_pixel_set_get.md R90 item 4). -/
def takeBits (b : Byte) (shift fmask : Nat) : Byte :=
  (b >>> shift) &&& BitVec.ofNat 8 fmask

/-- The byte of an RGB565 cell at its first offset (20_memory.md R44). -/
def cellFirst (big : Bool) (c : Colour) : Byte :=
  if big then c.extractLsb' 8 8 else c.extractLsb' 0 8

/-- The byte of an RGB565 cell at its second offset (20_memory.md R44). -/
def cellSecond (big : Bool) (c : Colour) : Byte :=
  if big then c.extractLsb' 0 8 else c.extractLsb' 8 8

/-- `cell_value(b0, b1)` (20_memory.md R44). -/
def cellValue (big : Bool) (b0 b1 : Byte) : Colour :=
  if big then b0 ++ b1 else b1 ++ b0

/-! ## Where a pixel lives -/

/-- Where a pixel lives: the location triple of 41_pixel_set_get.md R90 item 1, or the 2-byte cell of R94. -/
inductive Place where
  /-- Bits `shift + bpp - 1` down to `shift` of the byte at offset `byte`; `fmask` is the field mask. -/
  | bits (byte shift fmask : Nat)
  /-- The cell at offsets `first` and `first + 1`. -/
  | cell (first : Nat)
deriving DecidableEq, Repr

/-- `loc_0`, M1RM (41_pixel_set_get.md R91). -/
def placeM1RM (stride x y : Nat) : Place :=
  .bits ((x + y * stride) / 8) (x % 8) 1

/-- `loc_1`, M1RL (41_pixel_set_get.md R92). -/
def placeM1RL (stride x y : Nat) : Place :=
  .bits ((x + y * stride) / 8) (7 - x % 8) 1

/-- `loc_2`, M1C (41_pixel_set_get.md R93). -/
def placeM1C (stride x y : Nat) : Place :=
  .bits (y / 8 * stride + x) (y % 8) 1

/-- The cell of RGB565: index `x + y*S`, offset twice that (41_pixel_set_get.md R94). -/
def placeRGB565 (stride x y : Nat) : Place :=
  .cell (2 * (x + y * stride))

/-- `loc_4`, G2R (41_pixel_set_get.md R95). -/
def placeG2R (stride x y : Nat) : Place :=
  .bits ((x + y * stride) / 4) (x % 4 * 2) 3

/-- `loc_5`, G4RM: even `x` is the high nibble (41_pixel_set_get.md R96). -/
def placeG4RM (stride x y : Nat) : Place :=
  .bits ((x + y * stride) / 2) (if x % 2 = 0 then 4 else 0) 15

/-- `loc_6`, G4RL: even `x` is the low nibble (41_pixel_set_get.md R97). -/
def placeG4RL (stride x y : Nat) : Place :=
  .bits ((x + y * stride) / 2) (if x % 2 = 0 then 0 else 4) 15

/-- `loc_7`, G8: the whole byte (41_pixel_set_get.md R98). -/
def placeG8 (stride x y : Nat) : Place :=
  .bits (x + y * stride) 0 255

/-- `loc_f(x, y)` with `S = stride` (41_pixel_set_get.md R91 to R98). -/
def placeOf (f : PixFormat) (stride x y : Nat) : Place :=
  match f with
  | .m1rm => placeM1RM stride x y
  | .m1rl => placeM1RL stride x y
  | .m1c => placeM1C stride x y
  | .rgb565 => placeRGB565 stride x y
  | .g2r => placeG2R stride x y
  | .g4rm => placeG4RM stride x y
  | .g4rl => placeG4RL stride x y
  | .g8 => placeG8 stride x y

/-- The lowest byte offset a pixel occupies. -/
def Place.first (p : Place) : Nat :=
  match p with
  | .bits byte _ _ => byte
  | .cell first => first

/-- The highest byte offset a pixel occupies: what the window check compares with PF_LEN (20_memory.md R46). -/
def Place.last (p : Place) : Nat :=
  match p with
  | .bits byte _ _ => byte
  | .cell first => first + 1

/-- Reading a pixel: its field, or its cell, as an unsigned number (41_pixel_set_get.md R108, R112). -/
def Place.load (p : Place) (big : Bool) (m : Memory) : BitVec 32 :=
  match p with
  | .bits byte shift fmask => (takeBits (m.read byte) shift fmask).setWidth 32
  | .cell first => (cellValue big (m.read first) (m.read (first + 1))).setWidth 32

/-- Writing a pixel: a whole byte without a read when the field is the byte, otherwise read, patch and write back
(41_pixel_set_get.md R99); a cell is one 2-byte write (R103). -/
def Place.store (p : Place) (big : Bool) (m : Memory) (c : Colour) : Memory :=
  match p with
  | .bits byte shift fmask =>
    if fmask = 255 then m.write byte (c.setWidth 8)
    else m.write byte (putBits (m.read byte) shift fmask c)
  | .cell first => (m.write first (cellFirst big c)).write (first + 1) (cellSecond big c)

/-! ## Where a glyph sample lives -/

/-- `rowbytes`: each row of a glyph's bitmap starts on a byte boundary (43_glyph_sampler.md R140). -/
def glyphRowBytes (bits width : Nat) : Nat :=
  ceilDiv (width * bits) 8

/-- The byte offset of a sample (43_glyph_sampler.md R141). -/
def sampleByte (bits width offset x y : Nat) : Nat :=
  offset + y * glyphRowBytes bits width + x / (8 / bits)

/-- The coverage in a sample's byte: shift by the REMAINDER at every depth (43_glyph_sampler.md R141, R152). -/
def sampleValue (bits x : Nat) (b : Byte) : Byte :=
  (b >>> (x % (8 / bits) * bits)) &&& BitVec.ofNat 8 (2 ^ bits - 1)

end Sys2Proof.Machine
end

