-- ==== Sys2Proof/Machine/Blend.lean ====
section
/-! DEFINITION. BLEND, the alpha blender, for the eight destination formats (44_alpha_blend.md). -/

namespace Sys2Proof.Machine

/-- The interpolation, floor division of the weighted sum (44_alpha_blend.md R162). -/
def lerp (amax a fg bg : Nat) : Nat :=
  (fg * a + bg * (amax - a)) / amax

/-- Single-channel blend: the end points exactly, intermediate values clamped to `cm` (44_alpha_blend.md R163). -/
def blendSingle (cm amax a : Nat) (fg bg : Colour) : Colour :=
  if a = 0 then bg
  else if a = amax then fg
  else BitVec.ofNat 16 (min (lerp amax a fg.toNat bg.toNat) cm)

/-- RGB565 blend: the three fields independently (44_alpha_blend.md R164). -/
def blendFields (amax a : Nat) (fg bg : Colour) : Colour :=
  (BitVec.ofNat 5 (lerp amax a (fg.extractLsb' 11 5).toNat (bg.extractLsb' 11 5).toNat) ++
    BitVec.ofNat 6 (lerp amax a (fg.extractLsb' 5 6).toNat (bg.extractLsb' 5 6).toNat) ++
    BitVec.ofNat 5 (lerp amax a (fg.extractLsb' 0 5).toNat (bg.extractLsb' 0 5).toNat) : BitVec 16)

/-- BLEND with a format's blend function (44_alpha_blend.md R160): BAD_BPP, then NOT_CONFIGURED, then COV_RANGE
(R173); otherwise the blended colour, zero-extended. No state changes and no memory is accessed. -/
def blendColours (blend : Nat → Nat → Colour → Colour → Colour) (bpp a : BitVec 8) (fg bg : Colour) (s : State) :
    State :=
  match Depth.ofBits bpp.toNat with
  | none => s.raise .badBpp
  | some d =>
    if s.pfValid = false then s.raise .notConfigured
    else if a.toNat > coverageMax d then s.raise .covRange
    else s.respond ((blend (coverageMax d) a.toNat fg bg).setWidth 32)

/-- BLEND.M1RM (44_alpha_blend.md R165). -/
def execBlendM1RM (bpp a : BitVec 8) (fg bg : Colour) (s : State) : Host.Outcome State Fault Refusal :=
  .next (blendColours (blendSingle (formatMax .m1rm)) bpp a fg bg s)

/-- BLEND.M1RL (44_alpha_blend.md R166). -/
def execBlendM1RL (bpp a : BitVec 8) (fg bg : Colour) (s : State) : Host.Outcome State Fault Refusal :=
  .next (blendColours (blendSingle (formatMax .m1rl)) bpp a fg bg s)

/-- BLEND.M1C (44_alpha_blend.md R167). -/
def execBlendM1C (bpp a : BitVec 8) (fg bg : Colour) (s : State) : Host.Outcome State Fault Refusal :=
  .next (blendColours (blendSingle (formatMax .m1c)) bpp a fg bg s)

/-- BLEND.RGB565 (44_alpha_blend.md R168). -/
def execBlendRGB565 (bpp a : BitVec 8) (fg bg : Colour) (s : State) : Host.Outcome State Fault Refusal :=
  .next (blendColours blendFields bpp a fg bg s)

/-- BLEND.G2R (44_alpha_blend.md R169). -/
def execBlendG2R (bpp a : BitVec 8) (fg bg : Colour) (s : State) : Host.Outcome State Fault Refusal :=
  .next (blendColours (blendSingle (formatMax .g2r)) bpp a fg bg s)

/-- BLEND.G4RM (44_alpha_blend.md R170). -/
def execBlendG4RM (bpp a : BitVec 8) (fg bg : Colour) (s : State) : Host.Outcome State Fault Refusal :=
  .next (blendColours (blendSingle (formatMax .g4rm)) bpp a fg bg s)

/-- BLEND.G4RL (44_alpha_blend.md R171). -/
def execBlendG4RL (bpp a : BitVec 8) (fg bg : Colour) (s : State) : Host.Outcome State Fault Refusal :=
  .next (blendColours (blendSingle (formatMax .g4rl)) bpp a fg bg s)

/-- BLEND.G8 (44_alpha_blend.md R172). -/
def execBlendG8 (bpp a : BitVec 8) (fg bg : Colour) (s : State) : Host.Outcome State Fault Refusal :=
  .next (blendColours (blendSingle (formatMax .g8)) bpp a fg bg s)

end Sys2Proof.Machine
end

