-- ==== Sys2Proof/Machine/Configure.lean ====
section
/-! DEFINITION. CFGS, CFGG and RDREG: the commands that load and read the context registers (40_config.md). -/

namespace Sys2Proof.Machine

/-- CFGS with the checks of 40_config.md R80, R81: BAD_FORMAT clears PF_VALID and keeps the other registers; success
rounds the stride up to the format's granularity, which 17 bits hold. -/
def configureSurface (fmt : BitVec 8) (stride : BitVec 16) (len : BitVec 32) (s : State) : State :=
  if fmt.toNat > 7 then
    s.invalidateSurface.raise .badFormat
  else
    let format := fmt.setWidth 3
    let rounded := roundUp stride.toNat (formatGranularity (PixFormat.ofCode format))
    (s.setSurface format (BitVec.ofNat 17 rounded) len).respond 0

/-- CFGS (40_config.md R80, R81). -/
def execCfgs (fmt : BitVec 8) (stride : BitVec 16) (len : BitVec 32) (s : State) :
    Host.Outcome State Fault Refusal :=
  .next (configureSurface fmt stride len s)

/-- CFGG with the check of 40_config.md R83, R84: BAD_BPP clears G_VALID and keeps the other registers. -/
def configureGlyph (bpp : BitVec 8) (width height : BitVec 8) (offset len : BitVec 32) (s : State) : State :=
  match Depth.ofBits bpp.toNat with
  | none => s.invalidateGlyph.raise .badBpp
  | some _ => (s.setGlyph (bpp.setWidth 4) width height offset len).respond 0

/-- CFGG (40_config.md R83, R84). -/
def execCfgg (bpp : BitVec 8) (width height : BitVec 8) (offset len : BitVec 32) (s : State) :
    Host.Outcome State Fault Refusal :=
  .next (configureGlyph bpp width height offset len s)

/-- The value of register `n`, zero-extended to 32 bits (40_config.md R85). -/
def registerValue (n : Nat) (s : State) : BitVec 32 :=
  if n = 0 then s.pfFormat.setWidth 32
  else if n = 1 then s.pfStride.setWidth 32
  else if n = 2 then s.pfLen
  else if n = 3 then s.gBpp.setWidth 32
  else if n = 4 then s.gWidth.setWidth 32
  else if n = 5 then s.gHeight.setWidth 32
  else if n = 6 then s.gOffset
  else if n = 7 then s.gLen
  else if n = 8 then statusWord s.pfValid s.gValid
  else s.faultReg

/-- The width of register `n` in bits (10_state.md R29). -/
def registerWidth (n : Nat) : Nat :=
  if n = 0 then 3 else if n = 1 then 17 else if n = 2 then 32 else if n = 3 then 4
  else if n = 4 then 8 else if n = 5 then 8 else 32

/-- Whether register `n` is unspecified: a context register whose context has not been configured since reset
(10_state.md R28). -/
def registerOpen (n : Nat) (s : State) : Bool :=
  if n ≤ 2 then !s.pfWritten else if n ≤ 7 then !s.gWritten else false

/-- The free draw that a RDREG of an unspecified register answers: any value of the register's width, and not
necessarily the same on two reads (10_state.md R28; log 4). -/
def drawnValue (n : Nat) (s : State) : BitVec 32 :=
  ((Config.freeDraw s.draws).setWidth (registerWidth n)).setWidth 32

/-- RDREG (40_config.md R85): ILLEGAL_CMD above register 9 (30_encoding.md R66; the decoder lets no such word through,
log 13); otherwise it changes no state of PXB. -/
def readRegister (reg : BitVec 8) (s : State) : State :=
  if reg.toNat > 9 then s.raise .illegalCmd
  else if registerOpen reg.toNat s then s.countDraw.respond (drawnValue reg.toNat s)
  else s.respond (registerValue reg.toNat s)

/-- RDREG (40_config.md R85). -/
def execRdreg (reg : BitVec 8) (s : State) : Host.Outcome State Fault Refusal :=
  .next (readRegister reg s)

end Sys2Proof.Machine
end

