-- ==== Sys2Proof/Machine/Glyph.lean ====
section
/-! DEFINITION. GSIZE and GSAMP, the glyph-bitmap sampler, at the four depths (43_glyph_sampler.md). -/

namespace Sys2Proof.Machine

/-- GSIZE at a depth: the byte size of the glyph's packed bitmap, `ceil_div(W * B, 8) * H`; NOT_CONFIGURED without a
glyph (43_glyph_sampler.md R142). -/
def glyphSize (d : Depth) (s : State) : State :=
  if s.gValid = false then s.raise .notConfigured
  else s.respond (BitVec.ofNat 32 (glyphRowBytes d.bits s.gWidth.toNat * s.gHeight.toNat))

/-- GSIZE.1 (43_glyph_sampler.md R142). -/
def execGsize1 (s : State) : Host.Outcome State Fault Refusal :=
  .next (glyphSize .d1 s)

/-- GSIZE.2 (43_glyph_sampler.md R143). -/
def execGsize2 (s : State) : Host.Outcome State Fault Refusal :=
  .next (glyphSize .d2 s)

/-- GSIZE.4 (43_glyph_sampler.md R144). -/
def execGsize4 (s : State) : Host.Outcome State Fault Refusal :=
  .next (glyphSize .d4 s)

/-- GSIZE.8 (43_glyph_sampler.md R145). -/
def execGsize8 (s : State) : Host.Outcome State Fault Refusal :=
  .next (glyphSize .d8 s)

/-- GSAMP at a depth (43_glyph_sampler.md R147): NOT_CONFIGURED, then GLY_RANGE outside the glyph (R146), then GLY_ADDR
when the byte is at or beyond G_LEN (20_memory.md R47); otherwise the coverage. Glyph memory is only read. -/
def sampleGlyph (d : Depth) (x y : BitVec 16) (s : State) : State :=
  let byte := sampleByte d.bits s.gWidth.toNat s.gOffset.toNat x.toNat y.toNat
  if s.gValid = false then s.raise .notConfigured
  else if x.toNat ≥ s.gWidth.toNat ∨ y.toNat ≥ s.gHeight.toNat then s.raise .glyRange
  else if byte ≥ s.gLen.toNat then s.raise .glyAddr
  else s.respond ((sampleValue d.bits x.toNat (s.gly.read byte)).setWidth 32)

/-- GSAMP.1 (43_glyph_sampler.md R148). -/
def execGsamp1 (x y : BitVec 16) (s : State) : Host.Outcome State Fault Refusal :=
  .next (sampleGlyph .d1 x y s)

/-- GSAMP.2 (43_glyph_sampler.md R149). -/
def execGsamp2 (x y : BitVec 16) (s : State) : Host.Outcome State Fault Refusal :=
  .next (sampleGlyph .d2 x y s)

/-- GSAMP.4 (43_glyph_sampler.md R150). -/
def execGsamp4 (x y : BitVec 16) (s : State) : Host.Outcome State Fault Refusal :=
  .next (sampleGlyph .d4 x y s)

/-- GSAMP.8 (43_glyph_sampler.md R151). -/
def execGsamp8 (x y : BitVec 16) (s : State) : Host.Outcome State Fault Refusal :=
  .next (sampleGlyph .d8 x y s)

end Sys2Proof.Machine
end

