-- ==== Sys2Proof/Machine/PixelFill.lean ====
section
/-! DEFINITION. PFILL, the source's `fillRun(x,y,w,h,color)`, in its eight variants (42_pixel_fill.md R120 to R131). The
memory it leaves is computed pixel by pixel, as R120 defines it (log 12); the packed-byte way of building the same
memory (R132, R133) stands in FastFill.lean. -/

namespace Sys2Proof.Machine

/-- The memory update of PSET, without its checks, applied to every pixel of the rectangle `x <= xx < x + w`,
`y <= yy < y + h` (42_pixel_fill.md R120). -/
def fillPixels (place : Nat → Nat → Place) (big : Bool) (x y w h : Nat) (c : Colour) (m : Memory) : Memory :=
  forRange y h (fun yy row => forRange x w (fun xx mem => (place xx yy).store big mem c) row) m

/-- The highest byte offset any pixel of a non-empty rectangle occupies: that of its bottom-right pixel
(42_pixel_fill.md R121). -/
def topOffset (place : Nat → Nat → Place) (x y w h : Nat) : Nat :=
  (place (x + w - 1) (y + h - 1)).last

/-- PFILL with pixels at the places of a format (42_pixel_fill.md R123): NOT_CONFIGURED; an empty rectangle is done
(R122); PIX_ADDR when the footprint passes PF_LEN, nothing written (R121); otherwise the rectangle is filled. -/
def fillRectangle (place : Nat → Nat → Place) (x y w h : BitVec 16) (c : Colour) (s : State) : State :=
  if s.pfValid = false then s.raise .notConfigured
  else if w = 0 ∨ h = 0 then s.respond 0
  else if topOffset place x.toNat y.toNat w.toNat h.toNat ≥ s.pfLen.toNat then s.raise .pixAddr
  else (s.setPix (fillPixels place s.bigEndian x.toNat y.toNat w.toNat h.toNat c s.pix)).respond 0

/-- PFILL.M1RM (42_pixel_fill.md R124). -/
def execPfillM1RM (x y w h : BitVec 16) (c : Colour) (s : State) : Host.Outcome State Fault Refusal :=
  .next (fillRectangle (placeM1RM s.pfStride.toNat) x y w h c s)

/-- PFILL.M1RL (42_pixel_fill.md R125). -/
def execPfillM1RL (x y w h : BitVec 16) (c : Colour) (s : State) : Host.Outcome State Fault Refusal :=
  .next (fillRectangle (placeM1RL s.pfStride.toNat) x y w h c s)

/-- PFILL.M1C (42_pixel_fill.md R126). -/
def execPfillM1C (x y w h : BitVec 16) (c : Colour) (s : State) : Host.Outcome State Fault Refusal :=
  .next (fillRectangle (placeM1C s.pfStride.toNat) x y w h c s)

/-- PFILL.RGB565 (42_pixel_fill.md R127). -/
def execPfillRGB565 (x y w h : BitVec 16) (c : Colour) (s : State) : Host.Outcome State Fault Refusal :=
  .next (fillRectangle (placeRGB565 s.pfStride.toNat) x y w h c s)

/-- PFILL.G2R (42_pixel_fill.md R128). -/
def execPfillG2R (x y w h : BitVec 16) (c : Colour) (s : State) : Host.Outcome State Fault Refusal :=
  .next (fillRectangle (placeG2R s.pfStride.toNat) x y w h c s)

/-- PFILL.G4RM (42_pixel_fill.md R129). -/
def execPfillG4RM (x y w h : BitVec 16) (c : Colour) (s : State) : Host.Outcome State Fault Refusal :=
  .next (fillRectangle (placeG4RM s.pfStride.toNat) x y w h c s)

/-- PFILL.G4RL (42_pixel_fill.md R130). -/
def execPfillG4RL (x y w h : BitVec 16) (c : Colour) (s : State) : Host.Outcome State Fault Refusal :=
  .next (fillRectangle (placeG4RL s.pfStride.toNat) x y w h c s)

/-- PFILL.G8 (42_pixel_fill.md R131). -/
def execPfillG8 (x y w h : BitVec 16) (c : Colour) (s : State) : Host.Outcome State Fault Refusal :=
  .next (fillRectangle (placeG8 s.pfStride.toNat) x y w h c s)

end Sys2Proof.Machine
end

