-- ==== Sys2Proof/Machine/PixelGet.lean ====
section
/-! DEFINITION. PGET, the source's `get(x,y) -> color`, in its eight variants (41_pixel_set_get.md R108 to R116). -/

namespace Sys2Proof.Machine

/-- PGET of the pixel at a place (41_pixel_set_get.md R108, R112): NOT_CONFIGURED, then PIX_ADDR; otherwise the pixel's
field, zero-extended. No state changes. -/
def getPixel (place : Place) (s : State) : State :=
  if s.pfValid = false then s.raise .notConfigured
  else if place.last ≥ s.pfLen.toNat then s.raise .pixAddr
  else s.respond (place.load s.bigEndian s.pix)

/-- PGET.M1RM (41_pixel_set_get.md R109). -/
def execPgetM1RM (x y : BitVec 16) (s : State) : Host.Outcome State Fault Refusal :=
  .next (getPixel (placeM1RM s.pfStride.toNat x.toNat y.toNat) s)

/-- PGET.M1RL (41_pixel_set_get.md R110). -/
def execPgetM1RL (x y : BitVec 16) (s : State) : Host.Outcome State Fault Refusal :=
  .next (getPixel (placeM1RL s.pfStride.toNat x.toNat y.toNat) s)

/-- PGET.M1C (41_pixel_set_get.md R111). -/
def execPgetM1C (x y : BitVec 16) (s : State) : Host.Outcome State Fault Refusal :=
  .next (getPixel (placeM1C s.pfStride.toNat x.toNat y.toNat) s)

/-- PGET.RGB565 (41_pixel_set_get.md R112). -/
def execPgetRGB565 (x y : BitVec 16) (s : State) : Host.Outcome State Fault Refusal :=
  .next (getPixel (placeRGB565 s.pfStride.toNat x.toNat y.toNat) s)

/-- PGET.G2R (41_pixel_set_get.md R113). -/
def execPgetG2R (x y : BitVec 16) (s : State) : Host.Outcome State Fault Refusal :=
  .next (getPixel (placeG2R s.pfStride.toNat x.toNat y.toNat) s)

/-- PGET.G4RM (41_pixel_set_get.md R114). -/
def execPgetG4RM (x y : BitVec 16) (s : State) : Host.Outcome State Fault Refusal :=
  .next (getPixel (placeG4RM s.pfStride.toNat x.toNat y.toNat) s)

/-- PGET.G4RL (41_pixel_set_get.md R115). -/
def execPgetG4RL (x y : BitVec 16) (s : State) : Host.Outcome State Fault Refusal :=
  .next (getPixel (placeG4RL s.pfStride.toNat x.toNat y.toNat) s)

/-- PGET.G8 (41_pixel_set_get.md R116). -/
def execPgetG8 (x y : BitVec 16) (s : State) : Host.Outcome State Fault Refusal :=
  .next (getPixel (placeG8 s.pfStride.toNat x.toNat y.toNat) s)

end Sys2Proof.Machine
end

