-- ==== Sys2Proof/Machine/PixelSet.lean ====
section
/-! DEFINITION. PSET, the source's `set(x,y,color)`, in its eight variants (41_pixel_set_get.md R99 to R107). A variant
fixes where the pixel lives; the gate, the window check and the write are shared. -/

namespace Sys2Proof.Machine

/-- PSET of the pixel at a place (41_pixel_set_get.md R99, R103): NOT_CONFIGURED, then PIX_ADDR when any byte of the
pixel is at or beyond PF_LEN, and nothing read or written on a fault; otherwise the pixel's own bits take the colour,
masked to the field. -/
def setPixel (place : Place) (c : Colour) (s : State) : State :=
  if s.pfValid = false then s.raise .notConfigured
  else if place.last ≥ s.pfLen.toNat then s.raise .pixAddr
  else (s.setPix (place.store s.bigEndian s.pix c)).respond 0

/-- PSET.M1RM (41_pixel_set_get.md R100). -/
def execPsetM1RM (x y : BitVec 16) (c : Colour) (s : State) : Host.Outcome State Fault Refusal :=
  .next (setPixel (placeM1RM s.pfStride.toNat x.toNat y.toNat) c s)

/-- PSET.M1RL (41_pixel_set_get.md R101). -/
def execPsetM1RL (x y : BitVec 16) (c : Colour) (s : State) : Host.Outcome State Fault Refusal :=
  .next (setPixel (placeM1RL s.pfStride.toNat x.toNat y.toNat) c s)

/-- PSET.M1C (41_pixel_set_get.md R102). -/
def execPsetM1C (x y : BitVec 16) (c : Colour) (s : State) : Host.Outcome State Fault Refusal :=
  .next (setPixel (placeM1C s.pfStride.toNat x.toNat y.toNat) c s)

/-- PSET.RGB565 (41_pixel_set_get.md R103). -/
def execPsetRGB565 (x y : BitVec 16) (c : Colour) (s : State) : Host.Outcome State Fault Refusal :=
  .next (setPixel (placeRGB565 s.pfStride.toNat x.toNat y.toNat) c s)

/-- PSET.G2R (41_pixel_set_get.md R104). -/
def execPsetG2R (x y : BitVec 16) (c : Colour) (s : State) : Host.Outcome State Fault Refusal :=
  .next (setPixel (placeG2R s.pfStride.toNat x.toNat y.toNat) c s)

/-- PSET.G4RM (41_pixel_set_get.md R105). -/
def execPsetG4RM (x y : BitVec 16) (c : Colour) (s : State) : Host.Outcome State Fault Refusal :=
  .next (setPixel (placeG4RM s.pfStride.toNat x.toNat y.toNat) c s)

/-- PSET.G4RL (41_pixel_set_get.md R106). -/
def execPsetG4RL (x y : BitVec 16) (c : Colour) (s : State) : Host.Outcome State Fault Refusal :=
  .next (setPixel (placeG4RL s.pfStride.toNat x.toNat y.toNat) c s)

/-- PSET.G8 (41_pixel_set_get.md R107). -/
def execPsetG8 (x y : BitVec 16) (c : Colour) (s : State) : Host.Outcome State Fault Refusal :=
  .next (setPixel (placeG8 s.pfStride.toNat x.toNat y.toNat) c s)

end Sys2Proof.Machine
end

