-- ==== Sys2Proof/Machine/Dispatch.lean ====
section
/-! DEFINITION. One arm per instruction, each a direct call of its meaning. -/

namespace Sys2Proof.Machine

-- The meaning of an instruction. A variant (PSET.G4RM) has its own arm; which variant a word stands for is decided
-- by Decode.lean from the selector registers, and an arm does not look at them again (log 11).
def exec (i : Instr) (s : State) : Host.Outcome State Fault Refusal :=
  match i with
  | .cfgs fmt stride len => Sys2Proof.Machine.execCfgs fmt stride len s
  | .cfgg bpp width height offset len => Sys2Proof.Machine.execCfgg bpp width height offset len s
  | .rdreg reg => Sys2Proof.Machine.execRdreg reg s
  | .psetM1RM x y c => Sys2Proof.Machine.execPsetM1RM x y c s
  | .psetM1RL x y c => Sys2Proof.Machine.execPsetM1RL x y c s
  | .psetM1C x y c => Sys2Proof.Machine.execPsetM1C x y c s
  | .psetRGB565 x y c => Sys2Proof.Machine.execPsetRGB565 x y c s
  | .psetG2R x y c => Sys2Proof.Machine.execPsetG2R x y c s
  | .psetG4RM x y c => Sys2Proof.Machine.execPsetG4RM x y c s
  | .psetG4RL x y c => Sys2Proof.Machine.execPsetG4RL x y c s
  | .psetG8 x y c => Sys2Proof.Machine.execPsetG8 x y c s
  | .pgetM1RM x y => Sys2Proof.Machine.execPgetM1RM x y s
  | .pgetM1RL x y => Sys2Proof.Machine.execPgetM1RL x y s
  | .pgetM1C x y => Sys2Proof.Machine.execPgetM1C x y s
  | .pgetRGB565 x y => Sys2Proof.Machine.execPgetRGB565 x y s
  | .pgetG2R x y => Sys2Proof.Machine.execPgetG2R x y s
  | .pgetG4RM x y => Sys2Proof.Machine.execPgetG4RM x y s
  | .pgetG4RL x y => Sys2Proof.Machine.execPgetG4RL x y s
  | .pgetG8 x y => Sys2Proof.Machine.execPgetG8 x y s
  | .pfillM1RM x y w h c => Sys2Proof.Machine.execPfillM1RM x y w h c s
  | .pfillM1RL x y w h c => Sys2Proof.Machine.execPfillM1RL x y w h c s
  | .pfillM1C x y w h c => Sys2Proof.Machine.execPfillM1C x y w h c s
  | .pfillRGB565 x y w h c => Sys2Proof.Machine.execPfillRGB565 x y w h c s
  | .pfillG2R x y w h c => Sys2Proof.Machine.execPfillG2R x y w h c s
  | .pfillG4RM x y w h c => Sys2Proof.Machine.execPfillG4RM x y w h c s
  | .pfillG4RL x y w h c => Sys2Proof.Machine.execPfillG4RL x y w h c s
  | .pfillG8 x y w h c => Sys2Proof.Machine.execPfillG8 x y w h c s
  | .gsize1 => Sys2Proof.Machine.execGsize1 s
  | .gsize2 => Sys2Proof.Machine.execGsize2 s
  | .gsize4 => Sys2Proof.Machine.execGsize4 s
  | .gsize8 => Sys2Proof.Machine.execGsize8 s
  | .gsamp1 x y => Sys2Proof.Machine.execGsamp1 x y s
  | .gsamp2 x y => Sys2Proof.Machine.execGsamp2 x y s
  | .gsamp4 x y => Sys2Proof.Machine.execGsamp4 x y s
  | .gsamp8 x y => Sys2Proof.Machine.execGsamp8 x y s
  | .blendM1RM bpp a fg bg => Sys2Proof.Machine.execBlendM1RM bpp a fg bg s
  | .blendM1RL bpp a fg bg => Sys2Proof.Machine.execBlendM1RL bpp a fg bg s
  | .blendM1C bpp a fg bg => Sys2Proof.Machine.execBlendM1C bpp a fg bg s
  | .blendRGB565 bpp a fg bg => Sys2Proof.Machine.execBlendRGB565 bpp a fg bg s
  | .blendG2R bpp a fg bg => Sys2Proof.Machine.execBlendG2R bpp a fg bg s
  | .blendG4RM bpp a fg bg => Sys2Proof.Machine.execBlendG4RM bpp a fg bg s
  | .blendG4RL bpp a fg bg => Sys2Proof.Machine.execBlendG4RL bpp a fg bg s
  | .blendG8 bpp a fg bg => Sys2Proof.Machine.execBlendG8 bpp a fg bg s

end Sys2Proof.Machine
end

