-- ==== Sys2Proof/Machine/Port.lean ====
section
/-! DEFINITION. The command port: what PXB does with the move it is given. A legal word runs its instruction, an illegal
one raises ILLEGAL_CMD; between commands the host writes its memories and the platform resets the block. -/

namespace Sys2Proof.Machine

/-- What a command word that stands for no instruction does. An illegal encoding raises ILLEGAL_CMD and nothing else
(30_encoding.md R66). A GSIZE or GSAMP word while G_BPP selects no variant raises NOT_CONFIGURED while G_VALID = 0, the
gate of every variant (43_glyph_sampler.md R142, R147); with G_VALID = 1 the model stops, in a state that no run
reaches (10_state.md R22; log 7). -/
def rejectWord (r : Reject) (s : State) : Host.Outcome State Fault Refusal :=
  match r with
  | .badOpcode => .next (s.raise .illegalCmd)
  | .mustBeZero => .next (s.raise .illegalCmd)
  | .badRegister => .next (s.raise .illegalCmd)
  | .noVariant => if s.gValid then .fault .glyphDepth else .next (s.raise .notConfigured)

/-- Executes one command word to its response (10_state.md R12): decode on the word alone, pick the variant by the
selector registers (30_encoding.md R64), run it. -/
def runWord (w : Word) (s : State) : Host.Outcome State Fault Refusal :=
  match decode s.pfFormat s.gBpp w with
  | .ok i => exec i s
  | .error r => rejectWord r s

/-- A command word whose execution a reset interrupts (70_reset_and_hazards.md R201; log 8). -/
def abandonWord (w : Word) (s : State) : Host.Outcome State Fault Refusal :=
  match runWord w s with
  | .next done => .next (s.abandon done.pix)
  | .fault r => .fault r
  | .refused r => .refused r

/-- One move of the outside, and PXB's answer to it. -/
def takeMove (move : HostMove) (s : State) : Host.Outcome State Fault Refusal :=
  match move with
  | .command w => runWord w s
  | .writePix offset b => .next (s.hostWritePix offset b)
  | .writeGly offset b => .next (s.hostWriteGly offset b)
  | .reset => .next s.resetRegisters
  | .resetDuring w => abandonWord w s

end Sys2Proof.Machine
end

