-- ==== Sys2Proof/Machine/Step.lean ====
section
/-! DEFINITION. One step of the machine: PXB takes the oldest pending move. -/

namespace Sys2Proof.Machine

/-- One step. With no move pending PXB is idle and keeps all its state (60_exceptions.md R186); otherwise it takes the
oldest one to its end before the next (10_state.md R12, 20_memory.md R51). -/
def step (s : State) : Host.Outcome State Fault Refusal :=
  match s.inbox with
  | [] => .next s
  | move :: rest => takeMove move (s.setInbox rest)

/-- `s` with a command word as the next move, so that the next step runs it: the host presents it before whatever is
pending (log 1, log 2). -/
def State.withFetchWord (s : State) (nbits w : Nat) : State :=
  s.setInbox (.command (tableWord nbits w) :: s.inbox)

end Sys2Proof.Machine
end

