-- ==== Sys2Proof/Machine/FastFill.lean ====
section
/-! DEFINITION. The packed-byte fast path of PFILL (42_pixel_fill.md R132, R133): the way the spec requires a fill to be
BUILT. Only the memory it leaves is architectural (20_memory.md R51), and PixelFill.lean computes that memory pixel by
pixel (R120; log 12); that the two agree is a statement for the provers. -/

namespace Sys2Proof.Machine

/-- `patch(b, m)`: the bits of the mask take the replicated byte's (42_pixel_fill.md R132). -/
def patchByte (rep mask : Byte) (a : Nat) (m : Memory) : Memory :=
  m.write a ((m.read a &&& ~~~mask) ||| (rep &&& mask))

/-- How a row-major sub-byte format packs a byte, as R132 uses it. -/
structure Packing where
  /-- Pixels per byte. -/
  ppb : Nat
  /-- The largest colour. -/
  cmax : Nat
  /-- The factor that copies a colour into every slot of a byte. -/
  spread : Nat
  /-- The shift of slot `s` is `slope * s` when `rising`, otherwise `slope * (ppb - 1 - s)`. -/
  slope : Nat
  /-- Whether slot 0 is the least significant. -/
  rising : Bool
deriving DecidableEq, Repr

/-- The packing of each row-major sub-byte format (42_pixel_fill.md R132, R124, R125, R128, R129, R130). -/
def packingOf (f : PixFormat) : Option Packing :=
  match f with
  | .m1rm => some ⟨8, 1, 0xFF, 1, true⟩
  | .m1rl => some ⟨8, 1, 0xFF, 1, false⟩
  | .g2r => some ⟨4, 3, 0x55, 2, true⟩
  | .g4rm => some ⟨2, 15, 0x11, 4, false⟩
  | .g4rl => some ⟨2, 15, 0x11, 4, true⟩
  | .m1c => none
  | .rgb565 => none
  | .g8 => none

/-- `slot_shift_f(s)` (42_pixel_fill.md R132). -/
def slotShift (k : Packing) (slot : Nat) : Nat :=
  if k.rising then k.slope * slot else k.slope * (k.ppb - 1 - slot)

/-- The replicated byte: the masked colour in every slot (42_pixel_fill.md R132). -/
def replicated (k : Packing) (c : Colour) : Byte :=
  BitVec.ofNat 8 ((c.toNat &&& k.cmax) * k.spread)

/-- `emask(s0, s1)`: the fields of slots `s0` to `s1` (42_pixel_fill.md R132). -/
def edgeMask (k : Packing) (s0 s1 : Nat) : Byte :=
  forRange s0 (s1 + 1 - s0) (fun s acc => acc ||| (BitVec.ofNat 8 k.cmax <<< slotShift k s)) 0

/-- One row of the fast path: the run of pixels with linear indices `p0` to `p1 - 1` (42_pixel_fill.md R132). -/
def fastRun (k : Packing) (p0 p1 : Nat) (c : Colour) (m : Memory) : Memory :=
  let rep := replicated k c
  let b0 := p0 / k.ppb
  let b1 := (p1 - 1) / k.ppb
  if b0 = b1 then
    patchByte rep (edgeMask k (p0 % k.ppb) ((p1 - 1) % k.ppb)) b0 m
  else
    let lead := decide (p0 % k.ppb ≠ 0)
    let trail := decide (p1 % k.ppb ≠ 0)
    let m1 := if lead then patchByte rep (edgeMask k (p0 % k.ppb) (k.ppb - 1)) b0 m else m
    let m2 := if trail then patchByte rep (edgeMask k 0 ((p1 - 1) % k.ppb)) b1 m1 else m1
    let inner := if lead then b0 + 1 else b0
    let past := if trail then b1 else b1 + 1
    forRange inner (past - inner) (fun b mem => mem.write b rep) m2

/-- The fast path of the row-major sub-byte formats, row by row (42_pixel_fill.md R132). -/
def fastRows (k : Packing) (stride x y w h : Nat) (c : Colour) (m : Memory) : Memory :=
  forRange y h (fun yy mem => fastRun k (x + yy * stride) (x + yy * stride + w) c mem) m

/-- The rows of band `k` that a rectangle covers, as a mask of the band's bytes (42_pixel_fill.md R133). -/
def bandMask (y h k : Nat) : Byte :=
  let lo := max y (8 * k) % 8
  let hi := min (y + h - 1) (8 * k + 7) % 8
  BitVec.ofNat 8 ((2 ^ (hi + 1 - lo) - 1) * 2 ^ lo)

/-- The fast path of the column-major format, band by band: a byte wholly inside is written without a read, the others
are patched (42_pixel_fill.md R133). -/
def fastBands (stride x y w h : Nat) (c : Colour) (m : Memory) : Memory :=
  let rep : Byte := if c.getLsbD 0 then 0xFF else 0x00
  forRange (y / 8) ((y + h - 1) / 8 + 1 - y / 8) (fun k band =>
    forRange x w (fun xx mem =>
      if bandMask y h k = 0xFF then mem.write (k * stride + xx) rep
      else patchByte rep (bandMask y h k) (k * stride + xx) mem) band) m

end Sys2Proof.Machine
end

