-- ==== Sys2Proof/Safety.lean ====
section
/-! DEFINITION. The terms statements about PXB are made in: the parts of a response, the shapes of an outcome, the
invariant of the machine, which fault causes apply to a command and in what order, which bits a pixel owns. None of
these is used by the machine. -/

namespace Sys2Proof.Machine

/-! ## Responses and outcomes -/

/-- The status of a response word (30_encoding.md R67). -/
abbrev responseStatus (r : Response) : BitVec 4 :=
  r.extractLsb' 32 4

/-- The value of a response word (30_encoding.md R67). -/
abbrev responseValue (r : Response) : BitVec 32 :=
  r.extractLsb' 0 32

/-- The instruction completes with status 0 and `value` and changes nothing else. -/
def AnswersOnly (i : Instr) (s : State) (value : BitVec 32) : Prop :=
  exec i s = .next { s with outbox := s.outbox ++ [responseWord 0 value] }

/-- The instruction completes with status 0 and value 0; in pixel memory, bits `shift` to `shift + width - 1` of the
byte at `byte` take the low `width` bits of `c`, every other bit of that byte and every other byte keep their
values; nothing else changes. -/
def PatchesField (i : Instr) (s : State) (byte shift width : Nat) (c : Colour) : Prop :=
  ∃ m : Memory,
    exec i s = .next { s with pix := m, outbox := s.outbox ++ [responseWord 0 0] } ∧
    (∀ a, a ≠ byte → m.read a = s.pix.read a) ∧
    ∀ k, k < 8 → (m.read byte).getLsbD k =
      if shift ≤ k ∧ k < shift + width then c.getLsbD (k - shift) else (s.pix.read byte).getLsbD k

/-- The instruction ends with a fault and changes nothing but the response and the cause's bit of FAULT
(60_exceptions.md R182). -/
def Faults (i : Instr) (s : State) (cause : Cause) : Prop :=
  exec i s = .next { s with faultReg := s.faultReg ||| (1#32 <<< cause.code.toNat),
                            outbox := s.outbox ++ [responseWord cause.code 0] }

/-- The checks of PSET and PGET for a pixel whose highest byte is at `top` (41_pixel_set_get.md R99, R108): the gate,
then the window. -/
def ChecksPixel (i : Instr) (s : State) (top : Nat) : Prop :=
  (s.pfValid = false → Faults i s .notConfigured) ∧
  (s.pfValid = true → s.pfLen.toNat ≤ top → Faults i s .pixAddr)

/-- The checks of PFILL for a `w` by `h` rectangle whose highest byte is at `top`, and the empty rectangle
(42_pixel_fill.md R123). -/
def ChecksFill (i : Instr) (s : State) (w h : BitVec 16) (top : Nat) : Prop :=
  (s.pfValid = false → Faults i s .notConfigured) ∧
  (s.pfValid = true → w = 0 ∨ h = 0 → AnswersOnly i s 0) ∧
  (s.pfValid = true → w ≠ 0 → h ≠ 0 → s.pfLen.toNat ≤ top → Faults i s .pixAddr)

/-- The checks of GSAMP at `(x, y)` for a sample in the byte at `byte` (43_glyph_sampler.md R147): the gate, the local
coordinate, the window. -/
def ChecksSample (i : Instr) (s : State) (x y : BitVec 16) (byte : Nat) : Prop :=
  (s.gValid = false → Faults i s .notConfigured) ∧
  (s.gValid = true → s.gWidth.toNat ≤ x.toNat ∨ s.gHeight.toNat ≤ y.toNat → Faults i s .glyRange) ∧
  (s.gValid = true → x.toNat < s.gWidth.toNat → y.toNat < s.gHeight.toNat → s.gLen.toNat ≤ byte →
    Faults i s .glyAddr)

/-- The checks of BLEND at depth `bpp` and coverage `a` (44_alpha_blend.md R160, R173): the depth, the gate, the
coverage. -/
def ChecksBlend (i : Instr) (s : State) (bpp a : BitVec 8) : Prop :=
  (¬ (bpp.toNat = 1 ∨ bpp.toNat = 2 ∨ bpp.toNat = 4 ∨ bpp.toNat = 8) → Faults i s .badBpp) ∧
  (bpp.toNat = 1 ∨ bpp.toNat = 2 ∨ bpp.toNat = 4 ∨ bpp.toNat = 8 → s.pfValid = false → Faults i s .notConfigured) ∧
  (bpp.toNat = 1 ∨ bpp.toNat = 2 ∨ bpp.toNat = 4 ∨ bpp.toNat = 8 → s.pfValid = true →
    2 ^ bpp.toNat - 1 < a.toNat → Faults i s .covRange)

/-! ## The invariant -/

/-- 10_state.md R22: a valid surface has an aligned stride of at most 65536; a valid glyph has one of the four
depths. -/
abbrev ContextsLegal (s : State) : Prop :=
  (s.pfValid = true →
    s.pfStride.toNat % formatGranularity (PixFormat.ofCode s.pfFormat) = 0 ∧ s.pfStride.toNat ≤ 65536) ∧
  (s.gValid = true → s.gBpp.toNat = 1 ∨ s.gBpp.toNat = 2 ∨ s.gBpp.toNat = 4 ∨ s.gBpp.toNat = 8)

/-- The invariant every step keeps: legal contexts (10_state.md R22); the unused bits of FAULT are zero (R24); a valid
context has been written since reset; both memories are in canonical form and list no offset of 2^32 or more
(20_memory.md R40). -/
abbrev Inv (s : State) : Prop :=
  ContextsLegal s ∧
  s.faultReg &&& 0xFFFFFE01 = 0 ∧
  (s.pfValid = true → s.pfWritten = true) ∧
  (s.gValid = true → s.gWritten = true) ∧
  Memory.wf s.pix = true ∧ Memory.wf s.gly = true ∧
  Memory.bounded s.pix = true ∧ Memory.bounded s.gly = true

/-- The states of a run: from reset, with any moves of the outside to come and either byte order. -/
inductive Reachable : State → Prop where
  | start (moves : List HostMove) (big : Bool) :
      Reachable { State.reset with inbox := moves, bigEndian := big }
  | next (s t : State) : Reachable s → step s = .next t → Reachable t

/-- Nothing has faulted since reset: the premise 10_state.md R24 recommends for claims about command sequences. -/
abbrev NothingFaulted (s : State) : Prop :=
  s.faultReg = 0

/-! ## Pixels, rectangles, bits -/

/-- The rectangle of a fill (42_pixel_fill.md R120). -/
abbrev InRect (x y w h xx yy : Nat) : Prop :=
  x ≤ xx ∧ xx < x + w ∧ y ≤ yy ∧ yy < y + h

/-- Whether pixel `(xx, yy)` owns bit `k` of the byte at offset `a` (41_pixel_set_get.md R90, R94). -/
def OwnsBit (f : PixFormat) (stride xx yy a k : Nat) : Prop :=
  match placeOf f stride xx yy with
  | .bits byte shift _ => a = byte ∧ shift ≤ k ∧ k < shift + formatBits f
  | .cell first => (a = first ∨ a = first + 1) ∧ k < 8

/-- The highest byte offset of a fill's bottom-right pixel, as 42_pixel_fill.md R121 writes it per format. -/
def footprintTop (f : PixFormat) (stride xl yl : Nat) : Nat :=
  match f with
  | .m1rm => (xl + yl * stride) >>> 3
  | .m1rl => (xl + yl * stride) >>> 3
  | .m1c => (yl >>> 3) * stride + xl
  | .rgb565 => 2 * (xl + yl * stride) + 1
  | .g2r => (xl + yl * stride) >>> 2
  | .g4rm => (xl + yl * stride) >>> 1
  | .g4rl => (xl + yl * stride) >>> 1
  | .g8 => xl + yl * stride

/-- The smallest buffer that holds `rows` rows of an aligned stride, as 20_memory.md R49 writes it per format. -/
def smallestLength (f : PixFormat) (stride rows : Nat) : Nat :=
  match f with
  | .m1rm => stride * rows / 8
  | .m1rl => stride * rows / 8
  | .m1c => ceilDiv rows 8 * stride
  | .rgb565 => 2 * stride * rows
  | .g2r => stride * rows / 4
  | .g4rm => stride * rows / 2
  | .g4rl => stride * rows / 2
  | .g8 => stride * rows

/-! ## Which faults apply to a command word -/

/-- Whether the `op` field of a word is that of a mnemonic (30_encoding.md R63). -/
abbrev HasOpcode (w : Word) (m : Mnemonic) : Prop :=
  w.extractLsb' 0 8 = m.matchWord.extractLsb' 0 8

/-- The illegal encodings (30_encoding.md R66): no opcode, a must-be-zero bit set, RDREG above register 9. -/
def IllegalWord (w : Word) : Prop :=
  (∀ m, ¬ HasOpcode w m) ∨
  (∃ m, HasOpcode w m ∧ w &&& m.maskWord ≠ m.matchWord) ∨
  (HasOpcode w .rdreg ∧ 9 < (w.extractLsb' 8 8).toNat)

/-- Whether a fault cause applies to a legal command in a state: the "cause" column of 60_exceptions.md R180, each
row on its own, whatever other causes apply too. -/
def AppliesTo (cause : Cause) (c : Command) (s : State) : Prop :=
  match c with
  | .cfgs fmt _ _ => cause = .badFormat ∧ 7 < fmt.toNat
  | .cfgg bpp _ _ _ _ =>
    cause = .badBpp ∧ ¬ (bpp.toNat = 1 ∨ bpp.toNat = 2 ∨ bpp.toNat = 4 ∨ bpp.toNat = 8)
  | .rdreg _ => False
  | .pset x y _ =>
    (cause = .notConfigured ∧ s.pfValid = false) ∨
    (cause = .pixAddr ∧
      s.pfLen.toNat ≤ (placeOf (PixFormat.ofCode s.pfFormat) s.pfStride.toNat x.toNat y.toNat).last)
  | .pget x y =>
    (cause = .notConfigured ∧ s.pfValid = false) ∨
    (cause = .pixAddr ∧
      s.pfLen.toNat ≤ (placeOf (PixFormat.ofCode s.pfFormat) s.pfStride.toNat x.toNat y.toNat).last)
  | .pfill x y w h _ =>
    (cause = .notConfigured ∧ s.pfValid = false) ∨
    (cause = .pixAddr ∧ ∃ xx yy, InRect x.toNat y.toNat w.toNat h.toNat xx yy ∧
      s.pfLen.toNat ≤ (placeOf (PixFormat.ofCode s.pfFormat) s.pfStride.toNat xx yy).last)
  | .gsize => cause = .notConfigured ∧ s.gValid = false
  | .gsamp x y =>
    (cause = .notConfigured ∧ s.gValid = false) ∨
    (cause = .glyRange ∧ (s.gWidth.toNat ≤ x.toNat ∨ s.gHeight.toNat ≤ y.toNat)) ∨
    (cause = .glyAddr ∧
      s.gLen.toNat ≤ sampleByte s.gBpp.toNat s.gWidth.toNat s.gOffset.toNat x.toNat y.toNat)
  | .blend bpp a _ _ =>
    (cause = .badBpp ∧ ¬ (bpp.toNat = 1 ∨ bpp.toNat = 2 ∨ bpp.toNat = 4 ∨ bpp.toNat = 8)) ∨
    (cause = .notConfigured ∧ s.pfValid = false) ∨
    (cause = .covRange ∧ 2 ^ bpp.toNat - 1 < a.toNat)

/-- Whether a fault cause applies to a command word, legal or not (60_exceptions.md R180). -/
def Applies (cause : Cause) (w : Word) (s : State) : Prop :=
  (cause = .illegalCmd ∧ IllegalWord w) ∨
  (∃ c, decodeCommand w = .ok c ∧ AppliesTo cause c s)

/-- The place of a cause in the order of 60_exceptions.md R183. -/
def Cause.rank (c : Cause) : Nat :=
  match c with
  | .illegalCmd => 1
  | .badFormat => 2
  | .badBpp => 2
  | .notConfigured => 3
  | .glyRange => 4
  | .covRange => 4
  | .pixAddr => 5
  | .glyAddr => 5

/-- Which command can raise which fault (60_exceptions.md R181). -/
def mayRaise (m : Mnemonic) : List Cause :=
  match m with
  | .cfgs => [.illegalCmd, .badFormat]
  | .cfgg => [.illegalCmd, .badBpp]
  | .rdreg => [.illegalCmd]
  | .pset => [.illegalCmd, .notConfigured, .pixAddr]
  | .pget => [.illegalCmd, .notConfigured, .pixAddr]
  | .pfill => [.illegalCmd, .notConfigured, .pixAddr]
  | .gsize => [.illegalCmd, .notConfigured]
  | .gsamp => [.illegalCmd, .notConfigured, .glyRange, .glyAddr]
  | .blend => [.illegalCmd, .badBpp, .notConfigured, .covRange]

end Sys2Proof.Machine
end

