-- ==== Sys2Proof/Certificates/Slice0/Obligations.lean ====
section
/-! DEFINITION. The statements for the provers, in the order of OBLIGATIONS.json. Each docstring names the rules of
spec/ it formalises; formulas are written as the spec writes them (`>>>`, `&&&`), not as the model does. -/

open Sys2Proof Sys2Proof.Machine

/-! ## Encoding -/

/-- 30_encoding.md sections 1 to 3: every well-formed instruction, with every operand at every value, is what its own
word decodes to when the selector registers pick its variant. -/
def Obligations.DecodeOfEncode : Prop :=
  ∀ (i : Instr) (fmt : BitVec 3) (bpp : BitVec 4),
    WellFormed i = true → i.selectedBy fmt bpp = true → decode fmt bpp (encode i) = .ok i

/-- The other direction: a word that decodes is the word of what it decodes to, which is well-formed and the variant the
selectors pick: no bit of a legal word is ignored, and no other variant is ever taken. -/
def Obligations.LegalWordIsItsEncoding : Prop :=
  ∀ (fmt : BitVec 3) (bpp : BitVec 4) (w : Word) (i : Instr),
    decode fmt bpp w = .ok i → encode i = w ∧ WellFormed i = true ∧ i.selectedBy fmt bpp = true

/-- 30_encoding.md R65: a word is an instance of a mnemonic exactly when `C & mask = match`; RDREG further asks for a
register number of at most 9 (R66). -/
def Obligations.MatchAndMaskDecide : Prop :=
  ∀ (w : Word) (m : Mnemonic),
    (∃ c, decodeCommand w = .ok c ∧ c.mnemonic = m) ↔
      (w &&& m.maskWord = m.matchWord ∧ (m = .rdreg → (w.extractLsb' 8 8).toNat ≤ 9))

/-- 30_encoding.md R66: a command word ends with ILLEGAL_CMD and no other effect in exactly the three cases. -/
def Obligations.IllegalWordsOnlyFault : Prop :=
  ∀ (s : State) (w : Word) (rest : List HostMove), s.inbox = .command w :: rest →
    (IllegalWord w ↔
      step s = .next { s with inbox := rest, faultReg := s.faultReg ||| 2#32,
                              outbox := s.outbox ++ [responseWord 1 0] })

/-- A few words written out in 95_test_vectors.md (V-EN-1 to V-EN-8, P1) decode to what they stand for there. -/
def Obligations.SampleWordsDecode : Prop :=
  decode 3 1 0x000000000000000000050005F8000010 = .ok (.psetRGB565 5 5 0xF800) ∧
  decode 0 1 0x00000008000000000000000800000001 = .ok (.cfgs 0 8 8) ∧
  decode 0 1 0x00020000000123450002000300000802 = .ok (.cfgg 8 3 2 0x12345 0x20000) ∧
  decode 0 1 0x00000000000800080000000000010012 = .ok (.pfillM1RM 0 0 8 8 1) ∧
  decode 3 1 0x0000000000000000001FF80000800830 = .ok (.blendRGB565 8 128 0xF800 0x001F) ∧
  decode 0 4 0x00000000000000000000000000000020 = .ok .gsize4 ∧
  decode 0 2 0x00000000000000000001000200000021 = .ok (.gsamp2 2 1) ∧
  decode 0 1 0x00000000000000000000000000000103 = .ok (.rdreg 1) ∧
  decode 6 1 0x00000000000000000003000300000011 = .ok (.pgetG4RL 3 3)

/-! ## Steps -/

/-- When the next move is a word that decodes, under the selector registers, to an instruction, the step is that
instruction's meaning with the move taken off. -/
def Obligations.StepRunsDecodedInstruction : Prop :=
  ∀ (s : State) (w : Word) (rest : List HostMove) (i : Instr),
    s.inbox = .command w :: rest → decode s.pfFormat s.gBpp w = .ok i →
      step s = exec i { s with inbox := rest }

/-- 20_memory.md R52, 60_exceptions.md R186: with no move PXB idles; between commands the host writes single bytes of
either memory and nothing else changes. -/
def Obligations.MovesBetweenCommands : Prop :=
  (∀ s : State, s.inbox = [] → step s = .next s) ∧
  (∀ (s : State) (rest : List HostMove) (o : BitVec 32) (b : Byte), s.inbox = .writePix o b :: rest →
    ∃ m : Memory, step s = .next { s with inbox := rest, pix := m } ∧
      ∀ a, m.read a = if a = o.toNat then b else s.pix.read a) ∧
  (∀ (s : State) (rest : List HostMove) (o : BitVec 32) (b : Byte), s.inbox = .writeGly o b :: rest →
    ∃ m : Memory, step s = .next { s with inbox := rest, gly := m } ∧
      ∀ a, m.read a = if a = o.toNat then b else s.gly.read a)

/-- 10_state.md R28, 70_reset_and_hazards.md R200: reset clears the two valid bits and FAULT, touches neither memory,
produces no response, and leaves the eight context registers unspecified: the next RDREG of one answers a free draw.
The reset state has the same valid bits and FAULT. (What the context registers' own fields hold is the model's choice,
log 3, and is not stated.) -/
def Obligations.ResetEvent : Prop :=
  (State.reset.pfValid = false ∧ State.reset.gValid = false ∧ State.reset.faultReg = 0) ∧
  ∀ (s : State) (rest : List HostMove), s.inbox = .reset :: rest →
    ∃ t, step s = .next t ∧ t.pfValid = false ∧ t.gValid = false ∧ t.faultReg = 0 ∧
      t.pix = s.pix ∧ t.gly = s.gly ∧ t.inbox = rest ∧ t.outbox = s.outbox ∧ t.bigEndian = s.bigEndian ∧
      ∀ reg : BitVec 8, reg.toNat ≤ 7 →
        exec (.rdreg reg) t =
          .next { t with draws := t.draws + 1, outbox := t.outbox ++ [responseWord 0 (drawnValue reg.toNat t)] }

/-- After 70_reset_and_hazards.md section 1: a reset during a command abandons it. No response, valid bits and FAULT at
their reset values, each byte of pixel memory what it was or what the command would have left, glyph memory untouched.
The form of the move and of the old-or-new choice is the model's (log 8), and so are the clauses on `pfWritten` and
`gWritten`, the model's own marks that a context has been configured (log 4): cleared, they say that the eight context
registers are unspecified again. -/
def Obligations.ResetInterruptsCommand : Prop :=
  ∀ (s d : State) (w : Word) (rest : List HostMove), s.inbox = .resetDuring w :: rest →
    runWord w { s with inbox := rest } = .next d →
    ∃ t, step s = .next t ∧ t.outbox = s.outbox ∧ t.inbox = rest ∧
      t.pfValid = false ∧ t.gValid = false ∧ t.faultReg = 0 ∧ t.pfWritten = false ∧ t.gWritten = false ∧
      t.gly = s.gly ∧ t.bigEndian = s.bigEndian ∧
      ∀ a, t.pix.read a = s.pix.read a ∨ t.pix.read a = d.pix.read a

/-! ## Invariants of the whole machine -/

/-- Every step, from every state, keeps the invariant: legal contexts (10_state.md R22), unused FAULT bits zero (R24),
canonical memories, and no byte ever written at an offset of 2^32 or more (20_memory.md R40, R46). -/
def Obligations.InvariantKept : Prop :=
  ∀ s t : State, Inv s → step s = .next t → Inv t

/-- The invariant holds in the reset state, whatever moves are to come and whichever byte order is fixed. -/
def Obligations.InvariantAtReset : Prop :=
  ∀ (moves : List HostMove) (big : Bool), Inv { State.reset with inbox := moves, bigEndian := big }

/-- 10_state.md R22: in every reachable state a valid surface has a stride that is a multiple of the granularity and at
most 65536, a valid glyph has one of the four depths, and so, in every format that packs pixels into bytes along a
row, a pixel's position inside its byte depends on `x` alone. -/
def Obligations.ReachableContextsLegal : Prop :=
  ∀ s : State, Reachable s →
    ContextsLegal s ∧
    (s.pfValid = true → ∀ ppb, PixFormat.ofCode s.pfFormat ≠ .m1c →
      formatPixelsPerByte (PixFormat.ofCode s.pfFormat) = some ppb →
      ∀ x y, (x + y * s.pfStride.toNat) % ppb = x % ppb)

/-- 70_reset_and_hazards.md R206, 93_implementation_defined.md end of part 1: nothing stops the machine. From every state
with legal contexts a step gives a next state, and from every reachable state as well. -/
def Obligations.NothingStops : Prop :=
  (∀ s : State, ContextsLegal s → ∃ t, step s = .next t) ∧
  (∀ s : State, Reachable s → ∃ t, step s = .next t)

/-- 30_encoding.md section 5: a command word, legal or not, produces exactly one response word: bits 63 to 36 zero, a
status of at most 8, value 0 unless the status is 0; and then a value of the command's width. -/
def Obligations.OneResponsePerCommand : Prop :=
  ∀ (s t : State) (w : Word) (rest : List HostMove), s.inbox = .command w :: rest → step s = .next t →
    ∃ r, t.outbox = s.outbox ++ [r] ∧ t.inbox = rest ∧
      r.extractLsb' 36 28 = 0 ∧ (responseStatus r).toNat ≤ 8 ∧
      (responseStatus r ≠ 0 → responseValue r = 0) ∧
      (responseStatus r = 0 → ∀ c, decodeCommand w = .ok c →
        match c with
        | .cfgs .. => responseValue r = 0
        | .cfgg .. => responseValue r = 0
        | .rdreg _ => True
        | .pset .. => responseValue r = 0
        | .pget .. => (responseValue r).toNat < 2 ^ formatBits (PixFormat.ofCode s.pfFormat)
        | .pfill .. => responseValue r = 0
        | .gsize => (responseValue r).toNat ≤ 65025
        | .gsamp .. => (responseValue r).toNat < 2 ^ s.gBpp.toNat
        | .blend .. => (responseValue r).toNat < 2 ^ 16)

/-- 60_exceptions.md R181: which command can raise which fault, complete: a fault in the list is raised in some state,
and no other fault ever is. -/
def Obligations.FaultCausesPerCommand : Prop :=
  ∀ (m : Mnemonic) (cause : Cause),
    cause ∈ mayRaise m ↔
      ∃ (s t : State) (w : Word) (rest : List HostMove) (r : Response),
        s.inbox = .command w :: rest ∧ HasOpcode w m ∧ step s = .next t ∧
        t.outbox = s.outbox ++ [r] ∧ responseStatus r = cause.code

/-- 60_exceptions.md R183: the fault reported is the first, in the rule's order, of those that apply, and only its FAULT
bit is set; when none applies the status is 0 and FAULT keeps its bits. -/
def Obligations.FaultPriority : Prop :=
  ∀ (s t : State) (w : Word) (rest : List HostMove), ContextsLegal s → s.inbox = .command w :: rest →
    step s = .next t →
    ∃ r, t.outbox = s.outbox ++ [r] ∧
      (∀ cause, responseStatus r = cause.code ↔
        Applies cause w s ∧ ∀ other, Applies other w s → cause.rank ≤ other.rank) ∧
      (responseStatus r = 0 ↔ ∀ cause, ¬ Applies cause w s) ∧
      t.faultReg = if responseStatus r = 0 then s.faultReg
        else s.faultReg ||| (1#32 <<< (responseStatus r).toNat)

/-- 60_exceptions.md R182: a faulting command changes the response, the cause's FAULT bit, PF_VALID for BAD_FORMAT and
G_VALID for a CFGG's BAD_BPP, and nothing else. -/
def Obligations.FaultEffect : Prop :=
  ∀ (s t : State) (w : Word) (rest : List HostMove) (r : Response) (cause : Cause),
    s.inbox = .command w :: rest → step s = .next t → t.outbox = s.outbox ++ [r] →
    responseStatus r = cause.code →
      r = responseWord cause.code 0 ∧
      t = { s with
        inbox := rest
        outbox := s.outbox ++ [responseWord cause.code 0]
        faultReg := s.faultReg ||| (1#32 <<< cause.code.toNat)
        pfValid := if cause = .badFormat then false else s.pfValid
        gValid := if cause = .badBpp ∧ HasOpcode w .cfgg then false else s.gValid }

/-- 10_state.md R24: FAULT records the code of every faulting command, sticks, is cleared by reset alone, has its unused
bits zero, is zero at reset, and is what RDREG 9 answers. -/
def Obligations.FaultRegisterSticky : Prop :=
  (∀ (s t : State) (w : Word) (rest : List HostMove), s.inbox = .command w :: rest → step s = .next t →
    ∃ r, t.outbox = s.outbox ++ [r] ∧
      t.faultReg = if responseStatus r = 0 then s.faultReg
        else s.faultReg ||| (1#32 <<< (responseStatus r).toNat)) ∧
  (∀ s t : State, step s = .next t →
    (∀ rest, s.inbox ≠ .reset :: rest) → (∀ w rest, s.inbox ≠ .resetDuring w :: rest) →
    t.faultReg &&& s.faultReg = s.faultReg) ∧
  (∀ s t : State, s.faultReg &&& 0xFFFFFE01 = 0 → step s = .next t → t.faultReg &&& 0xFFFFFE01 = 0) ∧
  (∀ (s t : State) (rest : List HostMove), s.inbox = .reset :: rest → step s = .next t → t.faultReg = 0) ∧
  State.reset.faultReg = 0 ∧
  (∀ s : State, AnswersOnly (.rdreg 9) s s.faultReg)

/-- 10_state.md section 9: each context is written by its own configuration command only, pixel memory by PSET and PFILL
only, glyph memory, the ports' pending moves and the byte order by no command, and the model's count of free draws by
RDREG only. -/
def Obligations.RegisterWriters : Prop :=
  ∀ (i : Instr) (s t : State), exec i s = .next t →
    (i.command.mnemonic ≠ .cfgs →
      t.pfFormat = s.pfFormat ∧ t.pfStride = s.pfStride ∧ t.pfLen = s.pfLen ∧ t.pfValid = s.pfValid ∧
      t.pfWritten = s.pfWritten) ∧
    (i.command.mnemonic ≠ .cfgg →
      t.gBpp = s.gBpp ∧ t.gWidth = s.gWidth ∧ t.gHeight = s.gHeight ∧ t.gOffset = s.gOffset ∧ t.gLen = s.gLen ∧
      t.gValid = s.gValid ∧ t.gWritten = s.gWritten) ∧
    (i.command.mnemonic ≠ .pset → i.command.mnemonic ≠ .pfill → t.pix = s.pix) ∧
    (i.command.mnemonic ≠ .rdreg → t.draws = s.draws) ∧
    t.gly = s.gly ∧ t.inbox = s.inbox ∧ t.bigEndian = s.bigEndian

/-! ## Configuration and register read -/

/-- 40_config.md R80: a CFGS with a format code of at most 7 loads the surface context, the stride rounded up to the
format's granularity (8, 8, 8, 1, 4, 2, 2, 1 for codes 0 to 7), sets PF_VALID, responds 0 and changes nothing else; no
valid bit gates it; any other code clears PF_VALID and ends with BAD_FORMAT. -/
def Obligations.CfgsConfigures : Prop :=
  ∀ (fmt : BitVec 8) (stride : BitVec 16) (len : BitVec 32) (s : State),
    (fmt.toNat ≤ 7 →
      ∃ rounded : BitVec 17,
        exec (.cfgs fmt stride len) s = .next { s with
          pfFormat := fmt.setWidth 3, pfStride := rounded, pfLen := len, pfValid := true, pfWritten := true
          outbox := s.outbox ++ [responseWord 0 0] } ∧
        (fmt.setWidth 3).toNat = fmt.toNat ∧
        ∀ g, [8, 8, 8, 1, 4, 2, 2, 1][fmt.toNat]? = some g →
          rounded.toNat = (stride.toNat + g - 1) / g * g) ∧
    (7 < fmt.toNat → exec (.cfgs fmt stride len) s = .next { s with
      pfValid := false, faultReg := s.faultReg ||| (1#32 <<< 2), outbox := s.outbox ++ [responseWord 2 0] })

/-- 40_config.md R82: what a successful CFGS establishes. The rounded stride is the least multiple of the granularity that
is at least the operand; each row of a row-major sub-byte surface begins at a byte boundary and its `PF_STRIDE` pixels
occupy exactly `PF_STRIDE div ppb` bytes. -/
def Obligations.CfgsStrideRounding : Prop :=
  ∀ (fmt : BitVec 8) (stride : BitVec 16) (len : BitVec 32) (s t : State), fmt.toNat ≤ 7 →
    exec (.cfgs fmt stride len) s = .next t →
    stride.toNat ≤ t.pfStride.toNat ∧
    t.pfStride.toNat - stride.toNat < formatGranularity (PixFormat.ofCode t.pfFormat) ∧
    t.pfStride.toNat % formatGranularity (PixFormat.ofCode t.pfFormat) = 0 ∧
    ∀ ppb, PixFormat.ofCode t.pfFormat ≠ .m1c → PixFormat.ofCode t.pfFormat ≠ .g8 →
      formatPixelsPerByte (PixFormat.ofCode t.pfFormat) = some ppb →
      ∀ y a, (∃ x, x < t.pfStride.toNat ∧
          (placeOf (PixFormat.ofCode t.pfFormat) t.pfStride.toNat x y).first = a) ↔
        (y * (t.pfStride.toNat / ppb) ≤ a ∧ a < (y + 1) * (t.pfStride.toNat / ppb))

/-- 40_config.md R81: a CFGS that names no format clears PF_VALID, ends with BAD_FORMAT and keeps PF_FORMAT, PF_STRIDE and
PF_LEN; with PF_VALID clear, every pixel operation ends with NOT_CONFIGURED, and BLEND too unless its depth is bad. -/
def Obligations.CfgsUnknownFormat : Prop :=
  (∀ (fmt : BitVec 8) (stride : BitVec 16) (len : BitVec 32) (s : State), 7 < fmt.toNat →
    exec (.cfgs fmt stride len) s = .next { s with
      pfValid := false, faultReg := s.faultReg ||| (1#32 <<< 2), outbox := s.outbox ++ [responseWord 2 0] }) ∧
  (∀ (i : Instr) (s : State), s.pfValid = false →
    (i.command.mnemonic = .pset ∨ i.command.mnemonic = .pget ∨ i.command.mnemonic = .pfill →
      Faults i s .notConfigured) ∧
    (i.command.mnemonic = .blend → Faults i s .notConfigured ∨ Faults i s .badBpp))

/-- 40_config.md R83: a CFGG with a depth of 1, 2, 4 or 8 loads the glyph context, sets G_VALID, responds 0 and changes
nothing else; no valid bit gates it and the offset is not checked against the length; any other depth clears G_VALID
and ends with BAD_BPP. -/
def Obligations.CfggConfigures : Prop :=
  ∀ (bpp width height : BitVec 8) (offset len : BitVec 32) (s : State),
    (bpp.toNat = 1 ∨ bpp.toNat = 2 ∨ bpp.toNat = 4 ∨ bpp.toNat = 8 →
      ∃ depth : BitVec 4, depth.toNat = bpp.toNat ∧
        exec (.cfgg bpp width height offset len) s = .next { s with
          gBpp := depth, gWidth := width, gHeight := height, gOffset := offset, gLen := len, gValid := true
          gWritten := true, outbox := s.outbox ++ [responseWord 0 0] }) ∧
    (¬ (bpp.toNat = 1 ∨ bpp.toNat = 2 ∨ bpp.toNat = 4 ∨ bpp.toNat = 8) →
      exec (.cfgg bpp width height offset len) s = .next { s with
        gValid := false, faultReg := s.faultReg ||| (1#32 <<< 3), outbox := s.outbox ++ [responseWord 3 0] })

/-- 40_config.md R84: a CFGG whose depth is none of the four clears G_VALID, ends with BAD_BPP and keeps the other glyph
registers; with G_VALID clear, GSIZE and GSAMP end with NOT_CONFIGURED. -/
def Obligations.CfggUnknownDepth : Prop :=
  (∀ (bpp width height : BitVec 8) (offset len : BitVec 32) (s : State),
    ¬ (bpp.toNat = 1 ∨ bpp.toNat = 2 ∨ bpp.toNat = 4 ∨ bpp.toNat = 8) →
    exec (.cfgg bpp width height offset len) s = .next { s with
      gValid := false, faultReg := s.faultReg ||| (1#32 <<< 3), outbox := s.outbox ++ [responseWord 3 0] }) ∧
  (∀ (i : Instr) (s : State), s.gValid = false →
    i.command.mnemonic = .gsize ∨ i.command.mnemonic = .gsamp → Faults i s .notConfigured)

/-- 40_config.md R85: RDREG answers the register, zero-extended, and changes nothing; above register 9 it is illegal. A
context register that no CFGS or CFGG has loaded since reset answers some value of its width, and apart from the model's
own count of draws (log 4) nothing changes. -/
def Obligations.RdregAnswers : Prop :=
  (∀ s : State, s.pfWritten = true →
    AnswersOnly (.rdreg 0) s (s.pfFormat.setWidth 32) ∧ AnswersOnly (.rdreg 1) s (s.pfStride.setWidth 32) ∧
    AnswersOnly (.rdreg 2) s s.pfLen) ∧
  (∀ s : State, s.gWritten = true →
    AnswersOnly (.rdreg 3) s (s.gBpp.setWidth 32) ∧ AnswersOnly (.rdreg 4) s (s.gWidth.setWidth 32) ∧
    AnswersOnly (.rdreg 5) s (s.gHeight.setWidth 32) ∧ AnswersOnly (.rdreg 6) s s.gOffset ∧
    AnswersOnly (.rdreg 7) s s.gLen) ∧
  (∀ s : State, AnswersOnly (.rdreg 8) s ((BitVec.ofBool s.gValid ++ BitVec.ofBool s.pfValid).setWidth 32) ∧
    AnswersOnly (.rdreg 9) s s.faultReg) ∧
  (∀ (s : State) (reg : BitVec 8), 9 < reg.toNat → Faults (.rdreg reg) s .illegalCmd) ∧
  (∀ (s : State) (reg : BitVec 8) (width : Nat), [3, 17, 32, 4, 8, 8, 32, 32][reg.toNat]? = some width →
    (reg.toNat ≤ 2 → s.pfWritten = false) → (3 ≤ reg.toNat → s.gWritten = false) →
    ∃ (v : BitVec 32) (n : Nat), v.toNat < 2 ^ width ∧
      exec (.rdreg reg) s = .next { s with draws := n, outbox := s.outbox ++ [responseWord 0 v] })

/-- 10_state.md R23: STATUS reads bit 0 PF_VALID, bit 1 G_VALID, the rest zero; the two bits are written by CFGS and CFGG
only (reset apart), and no other instruction sets a flag. -/
def Obligations.StatusRegister : Prop :=
  (∀ s : State, ∃ v : BitVec 32, AnswersOnly (.rdreg 8) s v ∧
    v.toNat = (if s.pfValid then 1 else 0) + (if s.gValid then 2 else 0)) ∧
  (∀ (i : Instr) (s t : State), exec i s = .next t →
    (t.pfValid ≠ s.pfValid → i.command.mnemonic = .cfgs) ∧
    (t.gValid ≠ s.gValid → i.command.mnemonic = .cfgg))

/-! ## PSET and PGET -/

/-- 41_pixel_set_get.md R100, R101, R102: PSET in the three 1 bpp formats checks the gate and the window, then writes
`c[0]` into one bit of one byte, and nothing else changes. -/
def Obligations.PsetOneBitFormats : Prop :=
  ∀ (x y : BitVec 16) (c : Colour) (s : State),
    let p := x.toNat + y.toNat * s.pfStride.toNat
    let band := (y.toNat >>> 3) * s.pfStride.toNat + x.toNat
    ChecksPixel (.psetM1RM x y c) s (p >>> 3) ∧ ChecksPixel (.psetM1RL x y c) s (p >>> 3) ∧
    ChecksPixel (.psetM1C x y c) s band ∧
    (s.pfValid = true → p >>> 3 < s.pfLen.toNat →
      PatchesField (.psetM1RM x y c) s (p >>> 3) (x.toNat &&& 7) 1 c ∧
      PatchesField (.psetM1RL x y c) s (p >>> 3) (7 - (x.toNat &&& 7)) 1 c) ∧
    (s.pfValid = true → band < s.pfLen.toNat → PatchesField (.psetM1C x y c) s band (y.toNat &&& 7) 1 c)

/-- 41_pixel_set_get.md R104, R105, R106: PSET in the 2 and 4 bpp formats checks the gate and the window, then writes the
low bits of `c` into one field of one byte, and nothing else changes. -/
def Obligations.PsetFieldFormats : Prop :=
  ∀ (x y : BitVec 16) (c : Colour) (s : State),
    let p := x.toNat + y.toNat * s.pfStride.toNat
    ChecksPixel (.psetG2R x y c) s (p >>> 2) ∧ ChecksPixel (.psetG4RM x y c) s (p >>> 1) ∧
    ChecksPixel (.psetG4RL x y c) s (p >>> 1) ∧
    (s.pfValid = true → p >>> 2 < s.pfLen.toNat →
      PatchesField (.psetG2R x y c) s (p >>> 2) ((x.toNat &&& 3) <<< 1) 2 c) ∧
    (s.pfValid = true → p >>> 1 < s.pfLen.toNat →
      PatchesField (.psetG4RM x y c) s (p >>> 1) (if x.toNat % 2 = 0 then 4 else 0) 4 c ∧
      PatchesField (.psetG4RL x y c) s (p >>> 1) (if x.toNat % 2 = 0 then 0 else 4) 4 c)

/-- 41_pixel_set_get.md R103, R107: PSET.G8 checks the gate and the window, then writes the low byte of `c`; PSET.RGB565
writes the two bytes of the cell in the byte order of 20_memory.md R44, and faults, writing neither, when the second is
outside the buffer. -/
def Obligations.PsetWholeByteFormats : Prop :=
  ∀ (x y : BitVec 16) (c : Colour) (s : State),
    let p := x.toNat + y.toNat * s.pfStride.toNat
    ChecksPixel (.psetG8 x y c) s p ∧ ChecksPixel (.psetRGB565 x y c) s (2 * p + 1) ∧
    (s.pfValid = true → p < s.pfLen.toNat → PatchesField (.psetG8 x y c) s p 0 8 c) ∧
    (s.pfValid = true → 2 * p + 1 < s.pfLen.toNat →
      ∃ m : Memory,
        exec (.psetRGB565 x y c) s = .next { s with pix := m, outbox := s.outbox ++ [responseWord 0 0] } ∧
        m.read (2 * p) = (if s.bigEndian then c.extractLsb' 8 8 else c.extractLsb' 0 8) ∧
        m.read (2 * p + 1) = (if s.bigEndian then c.extractLsb' 0 8 else c.extractLsb' 8 8) ∧
        ∀ a, a ≠ 2 * p → a ≠ 2 * p + 1 → m.read a = s.pix.read a)

/-- 41_pixel_set_get.md R109 to R116: PGET in each of the eight formats checks the gate and the window, then answers the
pixel's field, zero-extended, and changes nothing. -/
def Obligations.PgetAnswers : Prop :=
  ∀ (x y : BitVec 16) (s : State),
    let p := x.toNat + y.toNat * s.pfStride.toNat
    let band := (y.toNat >>> 3) * s.pfStride.toNat + x.toNat
    (ChecksPixel (.pgetM1RM x y) s (p >>> 3) ∧ ChecksPixel (.pgetM1RL x y) s (p >>> 3) ∧
      ChecksPixel (.pgetM1C x y) s band ∧ ChecksPixel (.pgetRGB565 x y) s (2 * p + 1) ∧
      ChecksPixel (.pgetG2R x y) s (p >>> 2) ∧ ChecksPixel (.pgetG4RM x y) s (p >>> 1) ∧
      ChecksPixel (.pgetG4RL x y) s (p >>> 1) ∧ ChecksPixel (.pgetG8 x y) s p) ∧
    (s.pfValid = true → p >>> 3 < s.pfLen.toNat →
      (∃ v, AnswersOnly (.pgetM1RM x y) s v ∧
        v.toNat = ((s.pix.read (p >>> 3)).toNat >>> (x.toNat &&& 7)) &&& 1) ∧
      (∃ v, AnswersOnly (.pgetM1RL x y) s v ∧
        v.toNat = ((s.pix.read (p >>> 3)).toNat >>> (7 - (x.toNat &&& 7))) &&& 1)) ∧
    (s.pfValid = true → band < s.pfLen.toNat →
      ∃ v, AnswersOnly (.pgetM1C x y) s v ∧ v.toNat = ((s.pix.read band).toNat >>> (y.toNat &&& 7)) &&& 1) ∧
    (s.pfValid = true → 2 * p + 1 < s.pfLen.toNat →
      ∃ v, AnswersOnly (.pgetRGB565 x y) s v ∧
        v.toNat = (if s.bigEndian then (s.pix.read (2 * p)).toNat * 256 + (s.pix.read (2 * p + 1)).toNat
          else (s.pix.read (2 * p + 1)).toNat * 256 + (s.pix.read (2 * p)).toNat)) ∧
    (s.pfValid = true → p >>> 2 < s.pfLen.toNat →
      ∃ v, AnswersOnly (.pgetG2R x y) s v ∧
        v.toNat = ((s.pix.read (p >>> 2)).toNat >>> ((x.toNat &&& 3) <<< 1)) &&& 3) ∧
    (s.pfValid = true → p >>> 1 < s.pfLen.toNat →
      (∃ v, AnswersOnly (.pgetG4RM x y) s v ∧
        v.toNat = if x.toNat % 2 = 0 then (s.pix.read (p >>> 1)).toNat / 16 else (s.pix.read (p >>> 1)).toNat % 16) ∧
      (∃ v, AnswersOnly (.pgetG4RL x y) s v ∧
        v.toNat = if x.toNat % 2 = 0 then (s.pix.read (p >>> 1)).toNat % 16 else (s.pix.read (p >>> 1)).toNat / 16)) ∧
    (s.pfValid = true → p < s.pfLen.toNat → ∃ v, AnswersOnly (.pgetG8 x y) s v ∧ v.toNat = (s.pix.read p).toNat)

/-- 41_pixel_set_get.md R117: a PSET that ends with status 0 is read back, masked, by a PGET that follows at once; a PGET
at another location answers what it answered before; in the row-major formats two coordinates have the same location
exactly when their linear indices agree. -/
def Obligations.PixelRoundTrip : Prop :=
  (∀ (s t : State) (x y : BitVec 16) (c : Colour) (rest : List HostMove),
    s.inbox = .command (encodeCommand (.pset x y c)) :: .command (encodeCommand (.pget x y)) :: rest →
    step s = .next t → t.outbox = s.outbox ++ [responseWord 0 0] →
    ∃ (u : State) (v : BitVec 32), step t = .next u ∧ u.outbox = t.outbox ++ [responseWord 0 v] ∧
      v.toNat = c.toNat &&& formatMax (PixFormat.ofCode s.pfFormat)) ∧
  (∀ (f : PixFormat) (s before after later : State) (x y x' y' : BitVec 16) (c : Colour) (r : Response),
    placeOf f s.pfStride.toNat x'.toNat y'.toNat ≠ placeOf f s.pfStride.toNat x.toNat y.toNat →
    exec (pgetVariant f x' y') s = .next before → before.outbox = s.outbox ++ [r] →
    exec (psetVariant f x y c) s = .next after → exec (pgetVariant f x' y') after = .next later →
    later.outbox = after.outbox ++ [r]) ∧
  (∀ (f : PixFormat) (stride x y x' y' : Nat), f ≠ .m1c → stride % formatGranularity f = 0 →
    (placeOf f stride x y = placeOf f stride x' y' ↔ x + y * stride = x' + y' * stride))

/-- 41_pixel_set_get.md R118: no coordinate is compared with anything. In the row-major formats PSET and PGET depend on
`x` and `y` through the linear index alone, so `(x, y)` with `x >= S` is `(x - S, y + 1)`; in the column-major format
`(x, y)` is `(x - S, y + 8)`. -/
def Obligations.AliasedCoordinates : Prop :=
  (∀ (f : PixFormat) (s : State) (x y x' y' : BitVec 16) (c : Colour), f ≠ .m1c →
    s.pfStride.toNat % formatGranularity f = 0 →
    x.toNat + y.toNat * s.pfStride.toNat = x'.toNat + y'.toNat * s.pfStride.toNat →
    exec (psetVariant f x y c) s = exec (psetVariant f x' y' c) s ∧
    exec (pgetVariant f x y) s = exec (pgetVariant f x' y') s) ∧
  (∀ (f : PixFormat) (s : State) (x y x' y' : BitVec 16) (c : Colour), f ≠ .m1c →
    s.pfStride.toNat % formatGranularity f = 0 →
    x.toNat = x'.toNat + s.pfStride.toNat → y'.toNat = y.toNat + 1 →
    exec (psetVariant f x y c) s = exec (psetVariant f x' y' c) s ∧
    exec (pgetVariant f x y) s = exec (pgetVariant f x' y') s) ∧
  (∀ (s : State) (x y x' y' : BitVec 16) (c : Colour),
    x.toNat = x'.toNat + s.pfStride.toNat → y'.toNat = y.toNat + 8 →
    exec (.psetM1C x y c) s = exec (.psetM1C x' y' c) s ∧ exec (.pgetM1C x y) s = exec (.pgetM1C x' y') s)

/-- 20_memory.md R44: where a cell lies, its two bytes in each order, `cell_value` their inverse; no step changes the
order. -/
def Obligations.CellByteOrder : Prop :=
  (∀ (stride x y : Nat) (big : Bool) (m : Memory) (c : Colour),
    (placeOf .rgb565 stride x y).store big m c =
      (m.write (2 * (x + y * stride)) (cellFirst big c)).write (2 * (x + y * stride) + 1) (cellSecond big c)) ∧
  (∀ c : Colour, cellFirst false c = c.extractLsb' 0 8 ∧ cellSecond false c = c.extractLsb' 8 8 ∧
    cellFirst true c = c.extractLsb' 8 8 ∧ cellSecond true c = c.extractLsb' 0 8) ∧
  (∀ (big : Bool) (c : Colour), cellValue big (cellFirst big c) (cellSecond big c) = c) ∧
  (∀ (big : Bool) (b0 b1 : Byte),
    cellFirst big (cellValue big b0 b1) = b0 ∧ cellSecond big (cellValue big b0 b1) = b1) ∧
  (∀ s t : State, step s = .next t → t.bigEndian = s.bigEndian)

/-- 20_memory.md R49: the smallest PF_LEN under which every pixel of `rows` rows of an aligned stride is inside the
buffer, per format. -/
def Obligations.SmallestBuffer : Prop :=
  ∀ (f : PixFormat) (stride rows : Nat), stride % formatGranularity f = 0 →
    (∀ x y, x < stride → y < rows → (placeOf f stride x y).last < smallestLength f stride rows) ∧
    (∀ len, len < smallestLength f stride rows →
      ∃ x y, x < stride ∧ y < rows ∧ len ≤ (placeOf f stride x y).last)

/-- 20_memory.md section 3: no instruction changes a byte of pixel memory at or beyond PF_LEN. -/
def Obligations.WritesStayInWindow : Prop :=
  ∀ (i : Instr) (s t : State) (a : Nat), exec i s = .next t → s.pfLen.toNat ≤ a → t.pix.read a = s.pix.read a

/-- 20_memory.md section 3: no instruction reads a byte of pixel memory at or beyond PF_LEN or a byte of glyph memory at or
beyond G_LEN: two states that differ only there get the same response, the same registers and the same bytes inside
the window. -/
def Obligations.ReadsStayInWindow : Prop :=
  ∀ (i : Instr) (s t : State) (p g : Memory), exec i s = .next t →
    (∀ a, a < s.pfLen.toNat → p.read a = s.pix.read a) → (∀ a, a < s.gLen.toNat → g.read a = s.gly.read a) →
    ∃ q : Memory, exec i { s with pix := p, gly := g } = .next { t with pix := q, gly := g } ∧
      ∀ a, a < s.pfLen.toNat → q.read a = t.pix.read a

/-! ## PFILL -/

/-- 42_pixel_fill.md R122: an empty rectangle is done with status 0 whatever its place, with no footprint check; the gate
still applies. -/
def Obligations.FillEmptyRectangle : Prop :=
  ∀ (f : PixFormat) (x y w h : BitVec 16) (c : Colour) (s : State), w = 0 ∨ h = 0 →
    (s.pfValid = true → AnswersOnly (pfillVariant f x y w h c) s 0) ∧
    (s.pfValid = false → Faults (pfillVariant f x y w h c) s .notConfigured)

/-- 42_pixel_fill.md R121: the offset checked is the highest any pixel of the rectangle occupies, and when it is at or
beyond PF_LEN the fill faults and writes nothing. -/
def Obligations.FillFootprint : Prop :=
  ∀ (f : PixFormat) (x y w h : BitVec 16) (c : Colour) (s : State), w ≠ 0 → h ≠ 0 → s.pfValid = true →
    let top := footprintTop f s.pfStride.toNat (x.toNat + w.toNat - 1) (y.toNat + h.toNat - 1)
    (∀ xx yy, InRect x.toNat y.toNat w.toNat h.toNat xx yy →
      (placeOf f s.pfStride.toNat xx yy).last ≤ top) ∧
    (∃ xx yy, InRect x.toNat y.toNat w.toNat h.toNat xx yy ∧ (placeOf f s.pfStride.toNat xx yy).last = top) ∧
    (s.pfLen.toNat ≤ top → Faults (pfillVariant f x y w h c) s .pixAddr)

/-- 42_pixel_fill.md section 1: a fill of a non-empty rectangle inside the buffer completes, in each of the eight formats;
only bytes of the rectangle's pixels change, and no register. -/
def Obligations.FillCompletes : Prop :=
  ∀ (f : PixFormat) (x y w h : BitVec 16) (c : Colour) (s : State), w ≠ 0 → h ≠ 0 → s.pfValid = true →
    footprintTop f s.pfStride.toNat (x.toNat + w.toNat - 1) (y.toNat + h.toNat - 1) < s.pfLen.toNat →
    ∃ m : Memory,
      exec (pfillVariant f x y w h c) s = .next { s with pix := m, outbox := s.outbox ++ [responseWord 0 0] } ∧
      ∀ a, (∀ xx yy, InRect x.toNat y.toNat w.toNat h.toNat xx yy →
          a < (placeOf f s.pfStride.toNat xx yy).first ∨ (placeOf f s.pfStride.toNat xx yy).last < a) →
        m.read a = s.pix.read a

/-- 42_pixel_fill.md R120: the result of a fill that ends with status 0. Every pixel of the rectangle holds the masked
colour; every bit that no pixel of the rectangle owns is unchanged; and the memory is what the memory update of PSET
leaves, applied to the rectangle's pixels in any order. -/
def Obligations.FillResult : Prop :=
  ∀ (f : PixFormat) (x y w h : BitVec 16) (c : Colour) (s t : State),
    exec (pfillVariant f x y w h c) s = .next t → t.outbox = s.outbox ++ [responseWord 0 0] →
    (∀ xx yy, InRect x.toNat y.toNat w.toNat h.toNat xx yy →
      ((placeOf f s.pfStride.toNat xx yy).load s.bigEndian t.pix).toNat = c.toNat &&& formatMax f) ∧
    (∀ a k, k < 8 →
      (∀ xx yy, InRect x.toNat y.toNat w.toNat h.toNat xx yy → ¬ OwnsBit f s.pfStride.toNat xx yy a k) →
      (t.pix.read a).getLsbD k = (s.pix.read a).getLsbD k) ∧
    (∀ order : List (Nat × Nat),
      (∀ q, q ∈ order ↔ InRect x.toNat y.toNat w.toNat h.toNat q.1 q.2) →
      ∀ a, t.pix.read a =
        (order.foldl (fun m q => (placeOf f s.pfStride.toNat q.1 q.2).store s.bigEndian m c) s.pix).read a)

/-- 42_pixel_fill.md R132 and the five rules of the row-major sub-byte formats: PFILL checks the gate, the empty rectangle
and the footprint, then leaves exactly the bytes that the packed-byte fast path writes, and nothing else changes. -/
def Obligations.FillSubByteRows : Prop :=
  ∀ (f : PixFormat) (k : Packing) (x y w h : BitVec 16) (c : Colour) (s : State),
    packingOf f = some k → s.pfStride.toNat % formatGranularity f = 0 →
    let top := footprintTop f s.pfStride.toNat (x.toNat + w.toNat - 1) (y.toNat + h.toNat - 1)
    ChecksFill (pfillVariant f x y w h c) s w h top ∧
    (s.pfValid = true → w ≠ 0 → h ≠ 0 → top < s.pfLen.toNat →
      ∃ m : Memory,
        exec (pfillVariant f x y w h c) s = .next { s with pix := m, outbox := s.outbox ++ [responseWord 0 0] } ∧
        ∀ a, m.read a = (fastRows k s.pfStride.toNat x.toNat y.toNat w.toNat h.toNat c s.pix).read a)

/-- The masks, shifts and replicated bytes of 42_pixel_fill.md R124, R125, R128, R129, R130 in the closed forms those
rules give. -/
def Obligations.PackingForms : Prop :=
  (∀ k s0 s1, packingOf .m1rm = some k → s0 ≤ s1 → s1 < 8 →
    edgeMask k s0 s1 = BitVec.ofNat 8 ((2 ^ (s1 - s0 + 1) - 1) <<< s0)) ∧
  (∀ k s0 s1, packingOf .m1rl = some k → s0 ≤ s1 → s1 < 8 →
    edgeMask k s0 s1 = BitVec.ofNat 8 ((2 ^ (s1 - s0 + 1) - 1) <<< (7 - s1))) ∧
  (∀ k s0 s1, packingOf .g2r = some k → s0 ≤ s1 → s1 < 4 →
    edgeMask k s0 s1 = BitVec.ofNat 8 ((2 ^ (2 * (s1 - s0 + 1)) - 1) <<< (2 * s0))) ∧
  (∀ k, packingOf .g4rm = some k → edgeMask k 0 0 = 0xF0 ∧ edgeMask k 1 1 = 0x0F) ∧
  (∀ k, packingOf .g4rl = some k → edgeMask k 0 0 = 0x0F ∧ edgeMask k 1 1 = 0xF0) ∧
  (∀ (f : PixFormat) (k : Packing) (c : Colour) (slot : Nat), packingOf f = some k → slot < k.ppb →
    (replicated k c >>> slotShift k slot).toNat % 2 ^ formatBits f = c.toNat % 2 ^ formatBits f)

/-- 42_pixel_fill.md R126, R133: PFILL.M1C checks the gate, the empty rectangle and the footprint, then leaves exactly the
bytes that the band-by-band fast path writes, and nothing else changes. -/
def Obligations.FillColumnBands : Prop :=
  ∀ (x y w h : BitVec 16) (c : Colour) (s : State),
    let top := ((y.toNat + h.toNat - 1) >>> 3) * s.pfStride.toNat + (x.toNat + w.toNat - 1)
    ChecksFill (.pfillM1C x y w h c) s w h top ∧
    (s.pfValid = true → w ≠ 0 → h ≠ 0 → top < s.pfLen.toNat →
      ∃ m : Memory,
        exec (.pfillM1C x y w h c) s = .next { s with pix := m, outbox := s.outbox ++ [responseWord 0 0] } ∧
        ∀ a, m.read a = (fastBands s.pfStride.toNat x.toNat y.toNat w.toNat h.toNat c s.pix).read a)

/-- 42_pixel_fill.md R127, R131: PFILL.G8 makes each row a run of `w` bytes holding the low byte of `c`, PFILL.RGB565 a
run of `w` cells holding `c`; every other byte and every register is unchanged; gate, empty rectangle and footprint
first. -/
def Obligations.FillWholeCells : Prop :=
  ∀ (x y w h : BitVec 16) (c : Colour) (s : State),
    let last := x.toNat + w.toNat - 1 + (y.toNat + h.toNat - 1) * s.pfStride.toNat
    ChecksFill (.pfillG8 x y w h c) s w h last ∧ ChecksFill (.pfillRGB565 x y w h c) s w h (2 * last + 1) ∧
    (s.pfValid = true → w ≠ 0 → h ≠ 0 → last < s.pfLen.toNat →
      ∃ m : Memory,
        exec (.pfillG8 x y w h c) s = .next { s with pix := m, outbox := s.outbox ++ [responseWord 0 0] } ∧
        (∀ xx yy, InRect x.toNat y.toNat w.toNat h.toNat xx yy →
          m.read (xx + yy * s.pfStride.toNat) = c.extractLsb' 0 8) ∧
        (∀ a, (∀ xx yy, InRect x.toNat y.toNat w.toNat h.toNat xx yy → a ≠ xx + yy * s.pfStride.toNat) →
          m.read a = s.pix.read a)) ∧
    (s.pfValid = true → w ≠ 0 → h ≠ 0 → 2 * last + 1 < s.pfLen.toNat →
      ∃ m : Memory,
        exec (.pfillRGB565 x y w h c) s = .next { s with pix := m, outbox := s.outbox ++ [responseWord 0 0] } ∧
        (∀ xx yy, InRect x.toNat y.toNat w.toNat h.toNat xx yy →
          m.read (2 * (xx + yy * s.pfStride.toNat)) = cellFirst s.bigEndian c ∧
          m.read (2 * (xx + yy * s.pfStride.toNat) + 1) = cellSecond s.bigEndian c) ∧
        (∀ a, (∀ xx yy, InRect x.toNat y.toNat w.toNat h.toNat xx yy → a / 2 ≠ xx + yy * s.pfStride.toNat) →
          m.read a = s.pix.read a))

/-- 42_pixel_fill.md R134: after a fill with status 0, a PGET inside the rectangle answers the masked colour and a PGET
whose location is no pixel's of the rectangle answers what it answered before; for a rectangle inside the surface that
is the same as being outside the rectangle; a 1 by 1 fill is the PSET of that pixel. -/
def Obligations.FillLaws : Prop :=
  (∀ (f : PixFormat) (x y w h xx yy : BitVec 16) (c : Colour) (s t : State),
    exec (pfillVariant f x y w h c) s = .next t → t.outbox = s.outbox ++ [responseWord 0 0] →
    InRect x.toNat y.toNat w.toNat h.toNat xx.toNat yy.toNat →
    ∃ v, AnswersOnly (pgetVariant f xx yy) t v ∧ v.toNat = c.toNat &&& formatMax f) ∧
  (∀ (f : PixFormat) (x y w h xx yy : BitVec 16) (c : Colour) (s t before after : State) (r : Response),
    exec (pfillVariant f x y w h c) s = .next t → t.outbox = s.outbox ++ [responseWord 0 0] →
    (∀ x' y', InRect x.toNat y.toNat w.toNat h.toNat x' y' →
      placeOf f s.pfStride.toNat x' y' ≠ placeOf f s.pfStride.toNat xx.toNat yy.toNat) →
    exec (pgetVariant f xx yy) s = .next before → before.outbox = s.outbox ++ [r] →
    exec (pgetVariant f xx yy) t = .next after → after.outbox = t.outbox ++ [r]) ∧
  (∀ (f : PixFormat) (stride x y w h xx yy : Nat), stride % formatGranularity f = 0 → x + w ≤ stride →
    xx < stride →
    ((∃ x' y', InRect x y w h x' y' ∧ placeOf f stride x' y' = placeOf f stride xx yy) ↔
      InRect x y w h xx yy)) ∧
  (∀ (f : PixFormat) (x y : BitVec 16) (c : Colour) (s : State),
    exec (pfillVariant f x y 1 1 c) s = exec (psetVariant f x y c) s)

/-- 20_memory.md section 4: PSET and PFILL are idempotent on memory. -/
def Obligations.PixelWritesIdempotent : Prop :=
  ∀ (i : Instr) (s t u : State), i.command.mnemonic = .pset ∨ i.command.mnemonic = .pfill →
    exec i s = .next t → exec i t = .next u → ∀ a, u.pix.read a = t.pix.read a

/-! ## GSIZE and GSAMP -/

/-- 43_glyph_sampler.md R142 to R145: GSIZE answers the byte size of the glyph's bitmap, at most 65025, and changes
nothing; without a glyph it faults. -/
def Obligations.GsizeAnswers : Prop :=
  (∀ s : State, s.gValid = true →
    (∃ v, AnswersOnly .gsize1 s v ∧ v.toNat = (s.gWidth.toNat + 7) / 8 * s.gHeight.toNat ∧ v.toNat ≤ 65025) ∧
    (∃ v, AnswersOnly .gsize2 s v ∧ v.toNat = (2 * s.gWidth.toNat + 7) / 8 * s.gHeight.toNat ∧
      v.toNat = (s.gWidth.toNat + 3) / 4 * s.gHeight.toNat ∧ v.toNat ≤ 65025) ∧
    (∃ v, AnswersOnly .gsize4 s v ∧ v.toNat = (4 * s.gWidth.toNat + 7) / 8 * s.gHeight.toNat ∧
      v.toNat = (s.gWidth.toNat + 1) / 2 * s.gHeight.toNat ∧ v.toNat ≤ 65025) ∧
    (∃ v, AnswersOnly .gsize8 s v ∧ v.toNat = s.gWidth.toNat * s.gHeight.toNat ∧ v.toNat ≤ 65025)) ∧
  (∀ s : State, s.gValid = false →
    Faults .gsize1 s .notConfigured ∧ Faults .gsize2 s .notConfigured ∧ Faults .gsize4 s .notConfigured ∧
    Faults .gsize8 s .notConfigured)

/-- 43_glyph_sampler.md R146, R148 to R151, 20_memory.md R47: GSAMP checks the gate, the local coordinate and the glyph
window, in that order, then answers the coverage, the shift taken from the remainder at every depth, and changes
nothing. -/
def Obligations.GsampAnswers : Prop :=
  ∀ (x y : BitVec 16) (s : State),
    let W := s.gWidth.toNat
    let O := s.gOffset.toNat
    let byte1 := O + y.toNat * ((W + 7) / 8) + (x.toNat >>> 3)
    let byte2 := O + y.toNat * ((W + 3) / 4) + (x.toNat >>> 2)
    let byte4 := O + y.toNat * ((W + 1) / 2) + (x.toNat >>> 1)
    let byte8 := O + y.toNat * W + x.toNat
    ChecksSample (.gsamp1 x y) s x y byte1 ∧ ChecksSample (.gsamp2 x y) s x y byte2 ∧
    ChecksSample (.gsamp4 x y) s x y byte4 ∧ ChecksSample (.gsamp8 x y) s x y byte8 ∧
    (s.gValid = true → x.toNat < W → y.toNat < s.gHeight.toNat →
      (byte1 < s.gLen.toNat → ∃ v, AnswersOnly (.gsamp1 x y) s v ∧
        v.toNat = ((s.gly.read byte1).toNat >>> (x.toNat &&& 7)) &&& 1) ∧
      (byte2 < s.gLen.toNat → ∃ v, AnswersOnly (.gsamp2 x y) s v ∧
        v.toNat = ((s.gly.read byte2).toNat >>> ((x.toNat &&& 3) <<< 1)) &&& 3) ∧
      (byte4 < s.gLen.toNat → ∃ v, AnswersOnly (.gsamp4 x y) s v ∧
        v.toNat = ((s.gly.read byte4).toNat >>> ((x.toNat &&& 1) <<< 2)) &&& 15) ∧
      (byte8 < s.gLen.toNat → ∃ v, AnswersOnly (.gsamp8 x y) s v ∧ v.toNat = (s.gly.read byte8).toNat))

/-- 43_glyph_sampler.md section 1: every sample of a glyph lies inside the GSIZE bytes at G_OFFSET, and different samples
never share a bit. (The samples need not fill those bytes: a row may end in padding bits, R140.) -/
def Obligations.SamplesStayInBitmapAndApart : Prop :=
  ∀ (d : Depth) (width height offset x y x' y' : Nat), x < width → y < height → x' < width → y' < height →
    offset ≤ sampleByte d.bits width offset x y ∧
    sampleByte d.bits width offset x y < offset + (width * d.bits + 7) / 8 * height ∧
    (sampleByte d.bits width offset x y = sampleByte d.bits width offset x' y' →
      x % (8 / d.bits) * d.bits < x' % (8 / d.bits) * d.bits + d.bits →
      x' % (8 / d.bits) * d.bits < x % (8 / d.bits) * d.bits + d.bits → x = x' ∧ y = y')

/-- 43_glyph_sampler.md section 1: sampling is the row-major packing of the pixel formats at the same depth with a stride
of `rowbytes * ppb`: M1RM, G2R, G4RL, G8. -/
def Obligations.SamplingIsRowMajorPacking : Prop :=
  ∀ (width x y : Nat) (big : Bool) (m : Memory), x < width →
    (sampleValue 1 x (m.read (sampleByte 1 width 0 x y))).setWidth 32 =
      (placeOf .m1rm ((width + 7) / 8 * 8) x y).load big m ∧
    (sampleValue 2 x (m.read (sampleByte 2 width 0 x y))).setWidth 32 =
      (placeOf .g2r ((width + 3) / 4 * 4) x y).load big m ∧
    (sampleValue 4 x (m.read (sampleByte 4 width 0 x y))).setWidth 32 =
      (placeOf .g4rl ((width + 1) / 2 * 2) x y).load big m ∧
    (sampleValue 8 x (m.read (sampleByte 8 width 0 x y))).setWidth 32 = (placeOf .g8 width x y).load big m

/-! ## BLEND -/

/-- 44_alpha_blend.md R163, R173 and the seven rules that use them: BLEND in a single-channel format checks the depth, the
gate and the coverage, then answers `bg` at coverage 0, `fg` at full coverage, and otherwise the clamped interpolation;
nothing else changes. -/
def Obligations.BlendSingleChannel : Prop :=
  ∀ (f : PixFormat) (cm : Nat) (bpp a : BitVec 8) (fg bg : Colour) (s : State),
    (f, cm) ∈ [(PixFormat.m1rm, 1), (.m1rl, 1), (.m1c, 1), (.g2r, 3), (.g4rm, 15), (.g4rl, 15), (.g8, 255)] →
    ChecksBlend (blendVariant f bpp a fg bg) s bpp a ∧
    (s.pfValid = true → bpp.toNat = 1 ∨ bpp.toNat = 2 ∨ bpp.toNat = 4 ∨ bpp.toNat = 8 →
      a.toNat ≤ 2 ^ bpp.toNat - 1 →
      ∃ v, AnswersOnly (blendVariant f bpp a fg bg) s v ∧
        v.toNat = if a.toNat = 0 then bg.toNat else if a.toNat = 2 ^ bpp.toNat - 1 then fg.toNat
          else min ((fg.toNat * a.toNat + bg.toNat * (2 ^ bpp.toNat - 1 - a.toNat)) / (2 ^ bpp.toNat - 1)) cm)

/-- 44_alpha_blend.md R164, R168: BLEND.RGB565 checks the depth, the gate and the coverage, then interpolates the 5, 6 and
5 bit fields independently, each result fits its field, and the colour is the three put together; at coverage 0 it is
`bg` and at full coverage `fg`. -/
def Obligations.BlendThreeFields : Prop :=
  ∀ (bpp a : BitVec 8) (fg bg : Colour) (s : State),
    let amax := 2 ^ bpp.toNat - 1
    let mix := fun F G : Nat => (F * a.toNat + G * (amax - a.toNat)) / amax
    ChecksBlend (.blendRGB565 bpp a fg bg) s bpp a ∧
    (s.pfValid = true → bpp.toNat = 1 ∨ bpp.toNat = 2 ∨ bpp.toNat = 4 ∨ bpp.toNat = 8 → a.toNat ≤ amax →
      ∃ v, AnswersOnly (.blendRGB565 bpp a fg bg) s v ∧
        mix (fg.toNat / 2048) (bg.toNat / 2048) < 32 ∧
        mix (fg.toNat / 32 % 64) (bg.toNat / 32 % 64) < 64 ∧
        mix (fg.toNat % 32) (bg.toNat % 32) < 32 ∧
        v.toNat = mix (fg.toNat / 2048) (bg.toNat / 2048) * 2048 +
          mix (fg.toNat / 32 % 64) (bg.toNat / 32 % 64) * 32 + mix (fg.toNat % 32) (bg.toNat % 32) ∧
        (a.toNat = 0 → v.toNat = bg.toNat) ∧ (a.toNat = amax → v.toNat = fg.toNat))

/-- 44_alpha_blend.md R162: the properties of the interpolation the spec chose. -/
def Obligations.LerpProperties : Prop :=
  ∀ amax : Nat, amax = 1 ∨ amax = 3 ∨ amax = 15 ∨ amax = 255 → ∀ F G : Nat,
    lerp amax 0 F G = G ∧ lerp amax amax F G = F ∧
    (∀ a, a ≤ amax → lerp amax a F G = (F * a + G * (amax - a)) / amax ∧
      min F G ≤ lerp amax a F G ∧ lerp amax a F G ≤ max F G ∧
      (F < 65536 → G < 65536 → F * a + G * (amax - a) ≤ 65535 * 255) ∧
      lerp amax a amax 0 = a) ∧
    (∀ a b, a ≤ b → b ≤ amax →
      (G ≤ F → lerp amax a F G ≤ lerp amax b F G) ∧ (F ≤ G → lerp amax b F G ≤ lerp amax a F G))

/-- 44_alpha_blend.md section 4, for every format and depth: end points exact, equal colours unchanged, and colours within
the format's range give a result within it, monotonic in the coverage (per channel for RGB565), which a PSET then
stores unmasked. The spec's monotonicity is stated for colours in range: outside it the clamp of R163 breaks it. -/
def Obligations.BlendLaws : Prop :=
  ∀ (f : PixFormat) (bpp : BitVec 8) (fg bg : Colour) (s : State), s.pfValid = true →
    (bpp.toNat = 1 ∨ bpp.toNat = 2 ∨ bpp.toNat = 4 ∨ bpp.toNat = 8) →
    AnswersOnly (blendVariant f bpp 0 fg bg) s (bg.setWidth 32) ∧
    (∀ a : BitVec 8, a.toNat = 2 ^ bpp.toNat - 1 → AnswersOnly (blendVariant f bpp a fg bg) s (fg.setWidth 32)) ∧
    (∀ a : BitVec 8, a.toNat ≤ 2 ^ bpp.toNat - 1 → fg = bg →
      f = .rgb565 ∨ fg.toNat ≤ formatMax f → AnswersOnly (blendVariant f bpp a fg bg) s (fg.setWidth 32)) ∧
    (fg.toNat ≤ formatMax f → bg.toNat ≤ formatMax f → ∀ a b : BitVec 8, a.toNat ≤ b.toNat →
      b.toNat ≤ 2 ^ bpp.toNat - 1 →
      ∃ u v : Colour, AnswersOnly (blendVariant f bpp a fg bg) s (u.setWidth 32) ∧
        AnswersOnly (blendVariant f bpp b fg bg) s (v.setWidth 32) ∧
        u.toNat ≤ formatMax f ∧ u.toNat &&& formatMax f = u.toNat ∧
        (f ≠ .rgb565 → bg.toNat ≤ fg.toNat → u.toNat ≤ v.toNat) ∧
        (f ≠ .rgb565 → fg.toNat ≤ bg.toNat → v.toNat ≤ u.toNat) ∧
        (f = .rgb565 → ∀ start size : Nat, (start, size) ∈ [(11, 5), (5, 6), (0, 5)] →
          (bg.toNat / 2 ^ start % 2 ^ size ≤ fg.toNat / 2 ^ start % 2 ^ size →
            u.toNat / 2 ^ start % 2 ^ size ≤ v.toNat / 2 ^ start % 2 ^ size) ∧
          (fg.toNat / 2 ^ start % 2 ^ size ≤ bg.toNat / 2 ^ start % 2 ^ size →
            v.toNat / 2 ^ start % 2 ^ size ≤ u.toNat / 2 ^ start % 2 ^ size)))

/-- 44_alpha_blend.md section 1: BLEND reads PF_FORMAT and PF_VALID and nothing else: in two states that agree on those
two, a BLEND word gets the same response, whatever the glyph context, FAULT and both memories hold, and neither memory
nor any register but FAULT changes. -/
def Obligations.BlendReadsFormatAndValidOnly : Prop :=
  ∀ (s s' t : State) (bpp a : BitVec 8) (fg bg : Colour) (rest rest' : List HostMove),
    s.pfFormat = s'.pfFormat → s.pfValid = s'.pfValid →
    s.inbox = .command (encodeCommand (.blend bpp a fg bg)) :: rest →
    s'.inbox = .command (encodeCommand (.blend bpp a fg bg)) :: rest' →
    step s = .next t →
    ∃ (t' : State) (r : Response), step s' = .next t' ∧ t.outbox = s.outbox ++ [r] ∧ t'.outbox = s'.outbox ++ [r] ∧
      t = { s with inbox := rest, outbox := t.outbox, faultReg := t.faultReg }
end

