-- ==== Sys2Proof/Laws/Encoding.lean ====
section
/-! SUPPORT. The fields of a command word: splitting and joining are inverse, and masking works field by field. -/

namespace Sys2Proof

/-- The fields of a joined word are the fields it was joined from. -/
@[simp] theorem splitWord_joinFields (f : CommandFields) : splitWord (joinFields f) = f := by
  obtain ⟨op, sel, c, x, y, w, h, ext⟩ := f
  simp only [splitWord, joinFields, CommandFields.mk.injEq]
  refine ⟨?_, ?_, ?_, ?_, ?_, ?_, ?_, ?_⟩ <;>
    · apply BitVec.eq_of_getLsbD_eq
      intro i hi
      simp only [BitVec.getLsbD_extractLsb', BitVec.getLsbD_append]
      grind

/-- A word is the join of its fields. -/
@[simp] theorem joinFields_splitWord (w : Word) : joinFields (splitWord w) = w := by
  apply BitVec.eq_of_getLsbD_eq
  intro i hi
  simp only [splitWord, joinFields, BitVec.getLsbD_extractLsb', BitVec.getLsbD_append]
  grind

/-- Two words with the same fields are equal. -/
theorem word_eq_of_splitWord_eq {v w : Word} (h : splitWord v = splitWord w) : v = w := by
  rw [← joinFields_splitWord v, h, joinFields_splitWord]

/-- Masking a word masks each field. -/
theorem splitWord_and (v w : Word) :
    splitWord (v &&& w) =
      ⟨(splitWord v).op &&& (splitWord w).op, (splitWord v).sel &&& (splitWord w).sel,
       (splitWord v).c &&& (splitWord w).c, (splitWord v).x &&& (splitWord w).x,
       (splitWord v).y &&& (splitWord w).y, (splitWord v).w &&& (splitWord w).w,
       (splitWord v).h &&& (splitWord w).h, (splitWord v).ext &&& (splitWord w).ext⟩ := by
  simp only [splitWord, CommandFields.mk.injEq]
  refine ⟨?_, ?_, ?_, ?_, ?_, ?_, ?_, ?_⟩ <;>
    · apply BitVec.eq_of_getLsbD_eq
      intro i hi
      simp [BitVec.getLsbD_and, hi]

/-- A byte widened to a 16-bit field has a zero high byte (30_encoding.md R61). -/
@[simp] theorem setWidth_and_highByte (b : BitVec 8) : b.setWidth 16 &&& 0xFF00#16 = 0 := by
  apply BitVec.eq_of_getLsbD_eq
  intro i hi
  have high : (0xFF00#16).getLsbD i = decide (8 ≤ i) := by
    revert i; decide
  by_cases h : i < 8
  · simp [BitVec.getLsbD_and, high, h]
  · simp [BitVec.getLsbD_and, BitVec.getLsbD_setWidth, BitVec.getLsbD_of_ge b i (by omega)]

/-- The low byte of a widened byte. -/
@[simp] theorem extractLow_setWidth (b : BitVec 8) : (b.setWidth 16).extractLsb' 0 8 = b := by
  apply BitVec.eq_of_getLsbD_eq
  intro i hi
  simp [BitVec.getLsbD_setWidth, hi]
  omega

/-- The high byte of a widened byte. -/
@[simp] theorem extractHigh_setWidth (b : BitVec 8) : (b.setWidth 16).extractLsb' 8 8 = 0 := by
  apply BitVec.eq_of_getLsbD_eq
  intro i hi
  simp [BitVec.getLsbD_extractLsb', BitVec.getLsbD_setWidth]

/-- A 16-bit field with a zero high byte is its widened low byte. -/
theorem setWidth_extractLow {v : BitVec 16} (h : v.extractLsb' 8 8 = 0) : (v.extractLsb' 0 8).setWidth 16 = v := by
  apply BitVec.eq_of_getLsbD_eq
  intro i hi
  by_cases h8 : i < 8
  · simp [h8, hi]
  · have hz := congrArg (fun b => b.getLsbD (i - 8)) h
    have hi' : i - 8 < 8 := by omega
    have he : 8 + (i - 8) = i := by omega
    simp [hi', he] at hz
    simp [BitVec.getLsbD_setWidth, BitVec.getLsbD_extractLsb', h8, hz]

/-- The glyph offset is put together from its two halves (30_encoding.md R62). -/
@[simp] theorem append_extract_halves (v : BitVec 32) :
    (v.extractLsb' 16 16 ++ v.extractLsb' 0 16 : BitVec 32) = v := by
  apply BitVec.eq_of_getLsbD_eq
  intro i hi
  simp only [BitVec.getLsbD_append, BitVec.getLsbD_extractLsb']
  grind

/-- The low half of a glyph offset. -/
@[simp] theorem extractLow_append (h w : BitVec 16) : (h ++ w : BitVec 32).extractLsb' 0 16 = w := by
  apply BitVec.eq_of_getLsbD_eq
  intro i hi
  simp only [BitVec.getLsbD_append, BitVec.getLsbD_extractLsb']
  grind

/-- The high half of a glyph offset. -/
@[simp] theorem extractHigh_append (h w : BitVec 16) : (h ++ w : BitVec 32).extractLsb' 16 16 = h := by
  apply BitVec.eq_of_getLsbD_eq
  intro i hi
  simp only [BitVec.getLsbD_append, BitVec.getLsbD_extractLsb']
  grind

/-- The fields of an encoded command are the command's. -/
@[simp] theorem splitWord_encodeCommand (c : Command) : splitWord (encodeCommand c) = c.fields :=
  splitWord_joinFields c.fields

/-- A command is accepted exactly when its must-be-zero bits are zero (30_encoding.md R66 case 2). -/
theorem acceptIf_eq_ok (zeros : Bool) (c d : Command) : acceptIf zeros c = .ok d ↔ zeros = true ∧ c = d := by
  unfold acceptIf
  cases zeros <;> simp

/-- Rejecting for a missing variant is never the word's own doing (30_encoding.md R66). -/
theorem decodeFields_ne_noVariant (f : CommandFields) : decodeFields f ≠ .error .noVariant := by
  intro h
  have accept : ∀ zeros c, acceptIf zeros c ≠ .error .noVariant := fun zeros c => by
    unfold acceptIf
    cases zeros <;> simp
  unfold decodeFields at h
  split_ifs at h <;> first | exact accept _ _ h | (revert h; simp)

end Sys2Proof
end

