-- ==== Sys2Proof/Laws/Memory.lean ====
section
/-! SUPPORT. The laws of byte memory and of `forRange`: what a read gives after a write, that every operation keeps the
canonical form, that two canonical memories that read alike are equal. -/

namespace Sys2Proof.Machine

/-! ## Reading after writing -/

@[simp] theorem Memory.read_nil (a : Nat) : Memory.read [] a = unlistedByte := rfl

@[simp] theorem Memory.read_erase_same (m : Memory) (a : Nat) : (m.erase a).read a = unlistedByte := by
  induction m with
  | nil => rfl
  | cons cell rest ih =>
    obtain ⟨k, b⟩ := cell
    by_cases h : k = a <;> simp [Memory.erase, Memory.read, h, ih]

theorem Memory.read_erase_of_ne (m : Memory) {a a' : Nat} (h : a' ≠ a) : (m.erase a).read a' = m.read a' := by
  induction m with
  | nil => rfl
  | cons cell rest ih =>
    obtain ⟨k, b⟩ := cell
    by_cases hk : k = a
    · simp [Memory.erase, Memory.read, hk, ih, Ne.symm h]
    · simp only [Memory.erase, hk, if_false, Memory.read, ih]

theorem Memory.read_insert_of_ne (m : Memory) {a a' : Nat} (b : Byte) (h : a' ≠ a) :
    (m.insert a b).read a' = m.read a' := by
  induction m with
  | nil => simp [Memory.insert, Memory.read, Ne.symm h]
  | cons cell rest ih =>
    obtain ⟨k, v⟩ := cell
    by_cases hk : a < k <;> simp [Memory.insert, Memory.read, hk, ih, Ne.symm h]

theorem Memory.read_insert_erase (m : Memory) (a : Nat) (b : Byte) : ((m.erase a).insert a b).read a = b := by
  induction m with
  | nil => simp [Memory.erase, Memory.insert, Memory.read]
  | cons cell rest ih =>
    obtain ⟨k, v⟩ := cell
    by_cases hk : k = a
    · simpa [Memory.erase, hk] using ih
    · by_cases hlt : a < k <;> simp [Memory.erase, Memory.insert, Memory.read, hk, hlt, ih]

/-- A read of the byte just written gives it. -/
@[simp] theorem Memory.read_write_same (m : Memory) (a : Nat) (b : Byte) : (m.write a b).read a = b := by
  by_cases h : b = unlistedByte
  · simp [Memory.write, h]
  · simp [Memory.write, h, Memory.read_insert_erase]

/-- A write leaves every other byte alone. -/
theorem Memory.read_write_of_ne (m : Memory) {a a' : Nat} (b : Byte) (h : a' ≠ a) :
    (m.write a b).read a' = m.read a' := by
  by_cases hb : b = unlistedByte
  · simp [Memory.write, hb, Memory.read_erase_of_ne m h]
  · simp [Memory.write, hb, Memory.read_insert_of_ne _ b h, Memory.read_erase_of_ne m h]

/-- Everything a read can give after a write. -/
theorem Memory.read_write (m : Memory) (a a' : Nat) (b : Byte) :
    (m.write a b).read a' = if a' = a then b else m.read a' := by
  split
  · simp_all
  · exact Memory.read_write_of_ne m b ‹_›

/-! ## The canonical form -/

/-- The canonical form as a list property: offsets rising pairwise, no entry that an unlisted offset reads as. -/
theorem Memory.wf_iff (m : Memory) :
    m.wf = true ↔ m.Pairwise (fun p q => p.1 < q.1) ∧ ∀ p ∈ m, p.2 ≠ unlistedByte := by
  induction m with
  | nil => simp [Memory.wf]
  | cons cell rest ih =>
    obtain ⟨k, b⟩ := cell
    cases rest with
    | nil => simp [Memory.wf]
    | cons cell' rest' =>
      obtain ⟨k', b'⟩ := cell'
      simp only [Memory.wf, Bool.and_eq_true, ih, bne_iff_ne, ne_eq, decide_eq_true_eq]
      constructor
      · rintro ⟨⟨hb, hk⟩, hp, hall⟩
        refine ⟨?_, ?_⟩
        · rw [List.pairwise_cons]
          refine ⟨?_, hp⟩
          intro p hpmem
          rw [List.pairwise_cons] at hp
          rcases List.mem_cons.1 hpmem with rfl | hmem
          · exact hk
          · exact lt_trans hk (hp.1 p hmem)
        · intro p hpmem
          rcases List.mem_cons.1 hpmem with rfl | hmem
          · exact hb
          · exact hall p hmem
      · rintro ⟨hp, hall⟩
        rw [List.pairwise_cons] at hp
        exact ⟨⟨hall (k, b) (by simp), hp.1 (k', b') (by simp)⟩, hp.2, fun p hp' => hall p (by simp [hp'])⟩

theorem Memory.mem_erase {m : Memory} {a : Nat} {p : Host.Cell} (h : p ∈ m.erase a) : p ∈ m ∧ p.1 ≠ a := by
  induction m with
  | nil => simp [Memory.erase] at h
  | cons cell rest ih =>
    obtain ⟨k, b⟩ := cell
    by_cases hk : k = a
    · simp only [Memory.erase, hk, if_true] at h
      exact ⟨List.mem_cons_of_mem _ (ih h).1, (ih h).2⟩
    · simp only [Memory.erase, hk, if_false, List.mem_cons] at h
      rcases h with rfl | h
      · exact ⟨by simp, hk⟩
      · exact ⟨List.mem_cons_of_mem _ (ih h).1, (ih h).2⟩

theorem Memory.mem_insert {m : Memory} {a : Nat} {b : Byte} {p : Host.Cell} (h : p ∈ m.insert a b) :
    p = (a, b) ∨ p ∈ m := by
  induction m with
  | nil => simpa [Memory.insert] using h
  | cons cell rest ih =>
    obtain ⟨k, v⟩ := cell
    by_cases hk : a < k
    · simpa [Memory.insert, hk] using h
    · simp only [Memory.insert, hk, if_false, List.mem_cons] at h
      rcases h with rfl | h
      · simp
      · rcases ih h with rfl | h'
        · simp
        · simp [h']

theorem Memory.erase_pairwise {m : Memory} (a : Nat) (h : m.Pairwise (fun p q => p.1 < q.1)) :
    (m.erase a).Pairwise (fun p q => p.1 < q.1) := by
  induction m with
  | nil => simp [Memory.erase]
  | cons cell rest ih =>
    obtain ⟨k, b⟩ := cell
    rw [List.pairwise_cons] at h
    by_cases hk : k = a
    · simpa [Memory.erase, hk] using ih h.2
    · simp only [Memory.erase, hk, if_false, List.pairwise_cons]
      exact ⟨fun p hp => h.1 p (Memory.mem_erase hp).1, ih h.2⟩

theorem Memory.insert_pairwise {m : Memory} {a : Nat} (b : Byte) (h : m.Pairwise (fun p q => p.1 < q.1))
    (hne : ∀ p ∈ m, p.1 ≠ a) : (m.insert a b).Pairwise (fun p q => p.1 < q.1) := by
  induction m with
  | nil => simp [Memory.insert]
  | cons cell rest ih =>
    obtain ⟨k, v⟩ := cell
    have hp := List.pairwise_cons.1 h
    by_cases hk : a < k
    · simp only [Memory.insert, hk, if_true]
      refine List.pairwise_cons.2 ⟨fun p hmem => ?_, h⟩
      rcases List.mem_cons.1 hmem with rfl | hmem
      · exact hk
      · exact lt_trans hk (hp.1 p hmem)
    · simp only [Memory.insert, hk, if_false]
      refine List.pairwise_cons.2 ⟨fun p hmem => ?_, ih hp.2 fun p hp' => hne p (by simp [hp'])⟩
      have hka : k ≠ a := hne (k, v) (by simp)
      rcases Memory.mem_insert hmem with rfl | hmem
      · simp only; omega
      · exact hp.1 p hmem

/-- A write keeps the canonical form. -/
theorem Memory.wf_write {m : Memory} (a : Nat) (b : Byte) (h : m.wf = true) : (m.write a b).wf = true := by
  rw [Memory.wf_iff] at h ⊢
  by_cases hb : b = unlistedByte
  · simp only [Memory.write, hb, if_true]
    exact ⟨Memory.erase_pairwise a h.1, fun p hp => h.2 p (Memory.mem_erase hp).1⟩
  · simp only [Memory.write, hb, if_false]
    refine ⟨Memory.insert_pairwise b (Memory.erase_pairwise a h.1) fun p hp => (Memory.mem_erase hp).2, ?_⟩
    intro p hp
    rcases Memory.mem_insert hp with rfl | hp
    · exact hb
    · exact h.2 p (Memory.mem_erase hp).1

/-- A write below 2^32 keeps the bound. -/
theorem Memory.bounded_write {m : Memory} {a : Nat} (b : Byte) (ha : a < 2 ^ 32) (h : m.bounded = true) :
    (m.write a b).bounded = true := by
  simp only [Memory.bounded, List.all_eq_true, decide_eq_true_eq] at h ⊢
  intro p hp
  by_cases hb : b = unlistedByte
  · simp only [Memory.write, hb, if_true] at hp
    exact h p (Memory.mem_erase hp).1
  · simp only [Memory.write, hb, if_false] at hp
    rcases Memory.mem_insert hp with rfl | hp
    · exact ha
    · exact h p (Memory.mem_erase hp).1

theorem Memory.read_of_forall_ne {m : Memory} {a : Nat} (h : ∀ p ∈ m, p.1 ≠ a) : m.read a = unlistedByte := by
  induction m with
  | nil => rfl
  | cons cell rest ih =>
    obtain ⟨k, b⟩ := cell
    simp [Memory.read, h (k, b) (by simp), ih fun p hp => h p (by simp [hp])]

/-- In canonical memory, what an offset reads as decides whether it is listed. -/
theorem Memory.mem_iff_read {m : Memory} (h : m.wf = true) (a : Nat) (b : Byte) :
    (a, b) ∈ m ↔ m.read a = b ∧ b ≠ unlistedByte := by
  rw [Memory.wf_iff] at h
  induction m with
  | nil => simpa [Memory.read] using fun h1 => h1.symm
  | cons cell rest ih =>
    obtain ⟨k, v⟩ := cell
    have hp := List.pairwise_cons.1 h.1
    have ih' := ih ⟨hp.2, fun p hp' => h.2 p (by simp [hp'])⟩
    by_cases hk : k = a
    · subst hk
      simp only [Memory.read, if_true, List.mem_cons, Prod.mk.injEq, true_and]
      constructor
      · rintro (rfl | hmem)
        · exact ⟨rfl, h.2 (k, b) (by simp)⟩
        · exact absurd (hp.1 _ hmem) (lt_irrefl _)
      · rintro ⟨rfl, _⟩
        exact .inl rfl
    · simp only [Memory.read, hk, if_false, List.mem_cons, Prod.mk.injEq, Ne.symm hk, false_and, false_or]
      exact ih'

/-- Two canonical memories that read alike are equal as data. -/
theorem Memory.ext_of_wf {m n : Memory} (hm : m.wf = true) (hn : n.wf = true) (h : ∀ a, m.read a = n.read a) :
    m = n := by
  have hmem : ∀ p, p ∈ m ↔ p ∈ n := fun ⟨a, b⟩ => by
    rw [Memory.mem_iff_read hm, Memory.mem_iff_read hn, h a]
  have hm' := ((Memory.wf_iff m).1 hm).1
  have hn' := ((Memory.wf_iff n).1 hn).1
  have nodup : ∀ l : Memory, l.Pairwise (fun p q => p.1 < q.1) → l.Nodup := fun l hl =>
    hl.imp fun {p q} hpq heq => absurd hpq (by rw [heq]; exact lt_irrefl _)
  have perm : m.Perm n := (List.perm_ext_iff_of_nodup (nodup m hm') (nodup n hn')).2 hmem
  exact perm.eq_of_pairwise (fun p q _ _ h1 h2 => absurd (lt_trans h1 h2) (lt_irrefl _)) hm' hn'

/-! ## A memory partly new -/

theorem Memory.foldl_write_read (f : Nat → Byte) (l : List Nat) (m : Memory) (a : Nat) :
    (l.foldl (fun m a => m.write a (f a)) m).read a = if a ∈ l then f a else m.read a := by
  induction l generalizing m with
  | nil => simp
  | cons k rest ih =>
    simp only [List.foldl_cons, ih, List.mem_cons, Memory.read_write]
    by_cases h : a ∈ rest <;> by_cases hk : a = k <;> simp [h, hk]

/-- Each byte of a mixed memory is the new one or the old one, as `pick` says. -/
theorem Memory.read_mix (pick : Nat → Bool) (old new : Memory) (a : Nat) :
    (Memory.mix pick old new).read a = if pick a then new.read a else old.read a := by
  rw [Memory.mix, Memory.foldl_write_read (fun a => if pick a then new.read a else old.read a)]
  by_cases h : a ∈ new.map Prod.fst ++ old.map Prod.fst
  · simp [h]
  · have hn : ∀ p ∈ new, p.1 ≠ a := fun p hp heq => h (by simp; exact .inl ⟨p.2, heq ▸ hp⟩)
    have ho : ∀ p ∈ old, p.1 ≠ a := fun p hp heq => h (by simp; exact .inr ⟨p.2, heq ▸ hp⟩)
    simp [h, Memory.read_of_forall_ne hn, Memory.read_of_forall_ne ho]

theorem Memory.foldl_write_wf (f : Nat → Byte) (l : List Nat) {m : Memory} (h : m.wf = true) :
    (l.foldl (fun m a => m.write a (f a)) m).wf = true := by
  induction l generalizing m with
  | nil => exact h
  | cons k rest ih => exact ih (Memory.wf_write k (f k) h)

theorem Memory.mix_wf (pick : Nat → Bool) {old : Memory} (new : Memory) (h : old.wf = true) :
    (Memory.mix pick old new).wf = true :=
  Memory.foldl_write_wf _ _ h

theorem Memory.foldl_write_bounded (f : Nat → Byte) (l : List Nat) {m : Memory} (hl : ∀ a ∈ l, a < 2 ^ 32)
    (h : m.bounded = true) : (l.foldl (fun m a => m.write a (f a)) m).bounded = true := by
  induction l generalizing m with
  | nil => exact h
  | cons k rest ih =>
    exact ih (fun a ha => hl a (by simp [ha])) (Memory.bounded_write (f k) (hl k (by simp)) h)

theorem Memory.mix_bounded (pick : Nat → Bool) {old new : Memory} (ho : old.bounded = true)
    (hn : new.bounded = true) : (Memory.mix pick old new).bounded = true := by
  refine Memory.foldl_write_bounded _ _ (fun a ha => ?_) ho
  simp only [Memory.bounded, List.all_eq_true, decide_eq_true_eq] at ho hn
  simp only [List.mem_append, List.mem_map] at ha
  rcases ha with ⟨p, hp, rfl⟩ | ⟨p, hp, rfl⟩
  · exact hn p hp
  · exact ho p hp

/-! ## Ranges -/

@[simp] theorem forRange_zero {α : Type} (lo : Nat) (f : Nat → α → α) (a : α) : forRange lo 0 f a = a := rfl

@[simp] theorem forRange_succ {α : Type} (lo n : Nat) (f : Nat → α → α) (a : α) :
    forRange lo (n + 1) f a = forRange (lo + 1) n f (f lo a) := rfl

/-- A property that every pass keeps holds at the end. -/
theorem forRange_keeps {α : Type} (P : α → Prop) (lo n : Nat) (f : Nat → α → α) (a : α)
    (step : ∀ k, lo ≤ k → k < lo + n → ∀ b, P b → P (f k b)) (h : P a) : P (forRange lo n f a) := by
  induction n generalizing lo a with
  | zero => exact h
  | succ n ih =>
    exact ih (lo + 1) (f lo a) (fun k h1 h2 b hb => step k (by omega) (by omega) b hb)
      (step lo (le_refl _) (by omega) a h)

/-- A range as a fold over the list of its numbers. -/
theorem forRange_eq_foldl {α : Type} (lo n : Nat) (f : Nat → α → α) (a : α) :
    forRange lo n f a = (List.range' lo n).foldl (fun b k => f k b) a := by
  induction n generalizing lo a with
  | zero => rfl
  | succ n ih => simp [List.range'_succ, ih]

end Sys2Proof.Machine
end

