-- ==== Sys2Proof/Laws/Operands.lean ====
section
/-! SUPPORT. The laws of places: the spec's own spelling of each location, what a store changes and leaves, what a load
finds after a store. -/

namespace Sys2Proof.Machine

/-! ## Locations in the spec's spelling (41_pixel_set_get.md R91 to R98) -/

theorem shiftRight_three (n : Nat) : n >>> 3 = n / 8 := by simp [Nat.shiftRight_eq_div_pow]
theorem shiftRight_two (n : Nat) : n >>> 2 = n / 4 := by simp [Nat.shiftRight_eq_div_pow]
theorem shiftRight_one (n : Nat) : n >>> 1 = n / 2 := by simp [Nat.shiftRight_eq_div_pow]
theorem and_seven (n : Nat) : n &&& 7 = n % 8 := Nat.and_two_pow_sub_one_eq_mod n 3
theorem and_three (n : Nat) : n &&& 3 = n % 4 := Nat.and_two_pow_sub_one_eq_mod n 2
theorem and_one (n : Nat) : n &&& 1 = n % 2 := Nat.and_two_pow_sub_one_eq_mod n 1

theorem placeM1RM_spelled (S x y : Nat) : placeM1RM S x y = .bits ((x + y * S) >>> 3) (x &&& 7) 1 := by
  rw [shiftRight_three, and_seven]; rfl

theorem placeM1RL_spelled (S x y : Nat) : placeM1RL S x y = .bits ((x + y * S) >>> 3) (7 - (x &&& 7)) 1 := by
  rw [shiftRight_three, and_seven]; rfl

theorem placeM1C_spelled (S x y : Nat) : placeM1C S x y = .bits ((y >>> 3) * S + x) (y &&& 7) 1 := by
  rw [shiftRight_three, and_seven]; rfl

theorem placeG2R_spelled (S x y : Nat) : placeG2R S x y = .bits ((x + y * S) >>> 2) ((x &&& 3) <<< 1) 3 := by
  rw [shiftRight_two, and_three, Nat.shiftLeft_eq]; rfl

theorem placeG4RM_spelled (S x y : Nat) :
    placeG4RM S x y = .bits ((x + y * S) >>> 1) (if x % 2 = 0 then 4 else 0) 15 := by
  rw [shiftRight_one]; rfl

theorem placeG4RL_spelled (S x y : Nat) :
    placeG4RL S x y = .bits ((x + y * S) >>> 1) (if x % 2 = 0 then 0 else 4) 15 := by
  rw [shiftRight_one]; rfl

/-- No pixel of a rectangle lies higher than its bottom-right pixel (42_pixel_fill.md R121). -/
theorem placeOf_last_mono (f : PixFormat) (S : Nat) {x y x' y' : Nat} (hx : x ≤ x') (hy : y ≤ y') :
    (placeOf f S x y).last ≤ (placeOf f S x' y').last := by
  have rows : y * S ≤ y' * S := Nat.mul_le_mul_right _ hy
  have bands : y / 8 * S ≤ y' / 8 * S := Nat.mul_le_mul_right _ (Nat.div_le_div_right hy)
  cases f <;> simp only [placeOf, placeM1RM, placeM1RL, placeM1C, placeRGB565, placeG2R, placeG4RM, placeG4RL,
    placeG8, Place.last] <;> omega

/-- The rounded stride of 40_config.md R80: aligned, at least the operand, less than a granule above it, and at most
65536 for a 16-bit operand. -/
theorem roundUp_granularity (f : PixFormat) {n : Nat} (h : n < 65536) :
    roundUp n (formatGranularity f) % formatGranularity f = 0 ∧ n ≤ roundUp n (formatGranularity f) ∧
    roundUp n (formatGranularity f) - n < formatGranularity f ∧ roundUp n (formatGranularity f) ≤ 65536 := by
  cases f <;> simp only [roundUp, ceilDiv, formatGranularity] <;> omega

/-! ## Bits of a patched byte -/

theorem getLsbD_fieldMask (n k : Nat) (hk : k < 8) : (BitVec.ofNat 8 (2 ^ n - 1)).getLsbD k = decide (k < n) := by
  rw [BitVec.getLsbD_ofNat, Nat.testBit_two_pow_sub_one]
  simp [hk]

/-- `put` changes the bits of the field and no others (41_pixel_set_get.md R90 item 3). -/
theorem getLsbD_putBits (old : Byte) (shift n : Nat) (v : Colour) {k : Nat} (hk : k < 8) :
    (putBits old shift (2 ^ n - 1) v).getLsbD k =
      if shift ≤ k ∧ k < shift + n then v.getLsbD (k - shift) else old.getLsbD k := by
  have hm : k - shift < 8 → (BitVec.ofNat 8 (2 ^ n - 1)).getLsbD (k - shift) = decide (k - shift < n) :=
    getLsbD_fieldMask n (k - shift)
  unfold putBits
  simp only [BitVec.getLsbD_or, BitVec.getLsbD_and, BitVec.getLsbD_not, BitVec.getLsbD_shiftLeft,
    BitVec.getLsbD_setWidth]
  grind

/-- `take` reads the bits of the field. -/
theorem getLsbD_takeBits (b : Byte) (shift n : Nat) {k : Nat} (hk : k < 8) :
    (takeBits b shift (2 ^ n - 1)).getLsbD k = (decide (k < n) && b.getLsbD (shift + k)) := by
  unfold takeBits
  rw [BitVec.getLsbD_and, getLsbD_fieldMask n k hk, BitVec.getLsbD_ushiftRight, Bool.and_comm]

/-- The two bytes of a cell hold the colour (20_memory.md R44). -/
@[simp] theorem cellValue_cellBytes (big : Bool) (c : Colour) :
    cellValue big (cellFirst big c) (cellSecond big c) = c := by
  apply BitVec.eq_of_getLsbD_eq
  intro i hi
  cases big <;>
    simp only [cellValue, cellFirst, cellSecond, if_true, BitVec.getLsbD_append, BitVec.getLsbD_extractLsb',
      Bool.false_eq_true, if_false] <;> grind

/-! ## Storing and loading a pixel -/

/-- A store leaves every byte outside the pixel's bytes alone. -/
theorem Place.read_store_of_outside (p : Place) (big : Bool) (m : Memory) (c : Colour) {a : Nat}
    (h : a < p.first ∨ p.last < a) : (p.store big m c).read a = m.read a := by
  cases p with
  | bits byte shift fmask =>
    have hne : a ≠ byte := by simp only [Place.first, Place.last] at h; omega
    unfold Place.store
    simp only
    split <;> exact Memory.read_write_of_ne _ _ hne
  | cell first =>
    simp only [Place.first, Place.last] at h
    have h1 : a ≠ first := by omega
    have h2 : a ≠ first + 1 := by omega
    simp only [Place.store]
    rw [Memory.read_write_of_ne _ _ h2, Memory.read_write_of_ne _ _ h1]

/-- What a byte of a packed pixel holds after a store. -/
theorem Place.read_store_bits (byte shift fmask : Nat) (big : Bool) (m : Memory) (c : Colour) :
    ((Place.bits byte shift fmask).store big m c).read byte =
      if fmask = 255 then c.setWidth 8 else putBits (m.read byte) shift fmask c := by
  unfold Place.store
  simp only
  split <;> simp

/-- The first byte of a cell after a store. -/
theorem Place.read_store_cell_first (first : Nat) (big : Bool) (m : Memory) (c : Colour) :
    ((Place.cell first).store big m c).read first = cellFirst big c := by
  simp only [Place.store]
  rw [Memory.read_write_of_ne _ _ (by omega), Memory.read_write_same]

/-- The second byte of a cell after a store. -/
theorem Place.read_store_cell_second (first : Nat) (big : Bool) (m : Memory) (c : Colour) :
    ((Place.cell first).store big m c).read (first + 1) = cellSecond big c := by
  simp only [Place.store, Memory.read_write_same]

/-- A store keeps the canonical form. -/
theorem Place.store_wf (p : Place) (big : Bool) {m : Memory} (c : Colour) (h : m.wf = true) :
    (p.store big m c).wf = true := by
  cases p with
  | bits byte shift fmask =>
    unfold Place.store
    simp only
    split <;> exact Memory.wf_write _ _ h
  | cell first => exact Memory.wf_write _ _ (Memory.wf_write _ _ h)

/-- A store whose last byte is below 2^32 keeps the bound. -/
theorem Place.store_bounded (p : Place) (big : Bool) {m : Memory} (c : Colour) (hp : p.last < 2 ^ 32)
    (h : m.bounded = true) : (p.store big m c).bounded = true := by
  cases p with
  | bits byte shift fmask =>
    unfold Place.store
    simp only
    split <;> exact Memory.bounded_write _ hp h
  | cell first =>
    simp only [Place.last] at hp
    exact Memory.bounded_write _ hp (Memory.bounded_write _ (by omega) h)

/-- Storing a cell and loading it gives the colour back (41_pixel_set_get.md R117). -/
theorem Place.load_store_cell (first : Nat) (big : Bool) (m : Memory) (c : Colour) :
    (Place.cell first).load big ((Place.cell first).store big m c) = c.setWidth 32 := by
  simp only [Place.load, Place.read_store_cell_first, Place.read_store_cell_second, cellValue_cellBytes]

/-- A load depends on the pixel's bytes only. -/
theorem Place.load_congr (p : Place) (big : Bool) {m n : Memory}
    (h : ∀ a, p.first ≤ a → a ≤ p.last → m.read a = n.read a) : p.load big m = p.load big n := by
  cases p with
  | bits byte shift fmask =>
    simp only [Place.load, h byte (le_refl _) (le_refl _)]
  | cell first =>
    simp only [Place.load]
    rw [h first (le_refl _) (Nat.le_succ first), h (first + 1) (Nat.le_succ first) (le_refl _)]

end Sys2Proof.Machine
end

