-- ==== Sys2Proof/Laws/State.lean ====
section
/-! SUPPORT. One lemma per field per update of State, true by rfl: no later proof unfolds a record update. -/

namespace Sys2Proof.Machine

variable (s : State)

/-! ## respond -/

@[simp] theorem State.respond_pfFormat (v : BitVec 32) : (s.respond v).pfFormat = s.pfFormat := rfl
@[simp] theorem State.respond_pfStride (v : BitVec 32) : (s.respond v).pfStride = s.pfStride := rfl
@[simp] theorem State.respond_pfLen (v : BitVec 32) : (s.respond v).pfLen = s.pfLen := rfl
@[simp] theorem State.respond_pfValid (v : BitVec 32) : (s.respond v).pfValid = s.pfValid := rfl
@[simp] theorem State.respond_gBpp (v : BitVec 32) : (s.respond v).gBpp = s.gBpp := rfl
@[simp] theorem State.respond_gWidth (v : BitVec 32) : (s.respond v).gWidth = s.gWidth := rfl
@[simp] theorem State.respond_gHeight (v : BitVec 32) : (s.respond v).gHeight = s.gHeight := rfl
@[simp] theorem State.respond_gOffset (v : BitVec 32) : (s.respond v).gOffset = s.gOffset := rfl
@[simp] theorem State.respond_gLen (v : BitVec 32) : (s.respond v).gLen = s.gLen := rfl
@[simp] theorem State.respond_gValid (v : BitVec 32) : (s.respond v).gValid = s.gValid := rfl
@[simp] theorem State.respond_faultReg (v : BitVec 32) : (s.respond v).faultReg = s.faultReg := rfl
@[simp] theorem State.respond_pix (v : BitVec 32) : (s.respond v).pix = s.pix := rfl
@[simp] theorem State.respond_gly (v : BitVec 32) : (s.respond v).gly = s.gly := rfl
@[simp] theorem State.respond_inbox (v : BitVec 32) : (s.respond v).inbox = s.inbox := rfl
@[simp] theorem State.respond_outbox (v : BitVec 32) : (s.respond v).outbox = s.outbox ++ [responseWord 0 v] := rfl
@[simp] theorem State.respond_bigEndian (v : BitVec 32) : (s.respond v).bigEndian = s.bigEndian := rfl
@[simp] theorem State.respond_pfWritten (v : BitVec 32) : (s.respond v).pfWritten = s.pfWritten := rfl
@[simp] theorem State.respond_gWritten (v : BitVec 32) : (s.respond v).gWritten = s.gWritten := rfl
@[simp] theorem State.respond_draws (v : BitVec 32) : (s.respond v).draws = s.draws := rfl

/-! ## raise -/

@[simp] theorem State.raise_pfFormat (c : Cause) : (s.raise c).pfFormat = s.pfFormat := rfl
@[simp] theorem State.raise_pfStride (c : Cause) : (s.raise c).pfStride = s.pfStride := rfl
@[simp] theorem State.raise_pfLen (c : Cause) : (s.raise c).pfLen = s.pfLen := rfl
@[simp] theorem State.raise_pfValid (c : Cause) : (s.raise c).pfValid = s.pfValid := rfl
@[simp] theorem State.raise_gBpp (c : Cause) : (s.raise c).gBpp = s.gBpp := rfl
@[simp] theorem State.raise_gWidth (c : Cause) : (s.raise c).gWidth = s.gWidth := rfl
@[simp] theorem State.raise_gHeight (c : Cause) : (s.raise c).gHeight = s.gHeight := rfl
@[simp] theorem State.raise_gOffset (c : Cause) : (s.raise c).gOffset = s.gOffset := rfl
@[simp] theorem State.raise_gLen (c : Cause) : (s.raise c).gLen = s.gLen := rfl
@[simp] theorem State.raise_gValid (c : Cause) : (s.raise c).gValid = s.gValid := rfl
@[simp] theorem State.raise_faultReg (c : Cause) : (s.raise c).faultReg = recordFault s.faultReg c := rfl
@[simp] theorem State.raise_pix (c : Cause) : (s.raise c).pix = s.pix := rfl
@[simp] theorem State.raise_gly (c : Cause) : (s.raise c).gly = s.gly := rfl
@[simp] theorem State.raise_inbox (c : Cause) : (s.raise c).inbox = s.inbox := rfl
@[simp] theorem State.raise_outbox (c : Cause) : (s.raise c).outbox = s.outbox ++ [responseWord c.code 0] := rfl
@[simp] theorem State.raise_bigEndian (c : Cause) : (s.raise c).bigEndian = s.bigEndian := rfl
@[simp] theorem State.raise_pfWritten (c : Cause) : (s.raise c).pfWritten = s.pfWritten := rfl
@[simp] theorem State.raise_gWritten (c : Cause) : (s.raise c).gWritten = s.gWritten := rfl
@[simp] theorem State.raise_draws (c : Cause) : (s.raise c).draws = s.draws := rfl

/-! ## setSurface -/

@[simp] theorem State.setSurface_pfFormat (f : BitVec 3) (st : BitVec 17) (n : BitVec 32) :
    (s.setSurface f st n).pfFormat = f := rfl
@[simp] theorem State.setSurface_pfStride (f : BitVec 3) (st : BitVec 17) (n : BitVec 32) :
    (s.setSurface f st n).pfStride = st := rfl
@[simp] theorem State.setSurface_pfLen (f : BitVec 3) (st : BitVec 17) (n : BitVec 32) :
    (s.setSurface f st n).pfLen = n := rfl
@[simp] theorem State.setSurface_pfValid (f : BitVec 3) (st : BitVec 17) (n : BitVec 32) :
    (s.setSurface f st n).pfValid = true := rfl
@[simp] theorem State.setSurface_gBpp (f : BitVec 3) (st : BitVec 17) (n : BitVec 32) :
    (s.setSurface f st n).gBpp = s.gBpp := rfl
@[simp] theorem State.setSurface_gWidth (f : BitVec 3) (st : BitVec 17) (n : BitVec 32) :
    (s.setSurface f st n).gWidth = s.gWidth := rfl
@[simp] theorem State.setSurface_gHeight (f : BitVec 3) (st : BitVec 17) (n : BitVec 32) :
    (s.setSurface f st n).gHeight = s.gHeight := rfl
@[simp] theorem State.setSurface_gOffset (f : BitVec 3) (st : BitVec 17) (n : BitVec 32) :
    (s.setSurface f st n).gOffset = s.gOffset := rfl
@[simp] theorem State.setSurface_gLen (f : BitVec 3) (st : BitVec 17) (n : BitVec 32) :
    (s.setSurface f st n).gLen = s.gLen := rfl
@[simp] theorem State.setSurface_gValid (f : BitVec 3) (st : BitVec 17) (n : BitVec 32) :
    (s.setSurface f st n).gValid = s.gValid := rfl
@[simp] theorem State.setSurface_faultReg (f : BitVec 3) (st : BitVec 17) (n : BitVec 32) :
    (s.setSurface f st n).faultReg = s.faultReg := rfl
@[simp] theorem State.setSurface_pix (f : BitVec 3) (st : BitVec 17) (n : BitVec 32) :
    (s.setSurface f st n).pix = s.pix := rfl
@[simp] theorem State.setSurface_gly (f : BitVec 3) (st : BitVec 17) (n : BitVec 32) :
    (s.setSurface f st n).gly = s.gly := rfl
@[simp] theorem State.setSurface_inbox (f : BitVec 3) (st : BitVec 17) (n : BitVec 32) :
    (s.setSurface f st n).inbox = s.inbox := rfl
@[simp] theorem State.setSurface_outbox (f : BitVec 3) (st : BitVec 17) (n : BitVec 32) :
    (s.setSurface f st n).outbox = s.outbox := rfl
@[simp] theorem State.setSurface_bigEndian (f : BitVec 3) (st : BitVec 17) (n : BitVec 32) :
    (s.setSurface f st n).bigEndian = s.bigEndian := rfl
@[simp] theorem State.setSurface_pfWritten (f : BitVec 3) (st : BitVec 17) (n : BitVec 32) :
    (s.setSurface f st n).pfWritten = true := rfl
@[simp] theorem State.setSurface_gWritten (f : BitVec 3) (st : BitVec 17) (n : BitVec 32) :
    (s.setSurface f st n).gWritten = s.gWritten := rfl
@[simp] theorem State.setSurface_draws (f : BitVec 3) (st : BitVec 17) (n : BitVec 32) :
    (s.setSurface f st n).draws = s.draws := rfl

/-! ## invalidateSurface -/

@[simp] theorem State.invalidateSurface_pfFormat : (s.invalidateSurface).pfFormat = s.pfFormat := rfl
@[simp] theorem State.invalidateSurface_pfStride : (s.invalidateSurface).pfStride = s.pfStride := rfl
@[simp] theorem State.invalidateSurface_pfLen : (s.invalidateSurface).pfLen = s.pfLen := rfl
@[simp] theorem State.invalidateSurface_pfValid : (s.invalidateSurface).pfValid = false := rfl
@[simp] theorem State.invalidateSurface_gBpp : (s.invalidateSurface).gBpp = s.gBpp := rfl
@[simp] theorem State.invalidateSurface_gWidth : (s.invalidateSurface).gWidth = s.gWidth := rfl
@[simp] theorem State.invalidateSurface_gHeight : (s.invalidateSurface).gHeight = s.gHeight := rfl
@[simp] theorem State.invalidateSurface_gOffset : (s.invalidateSurface).gOffset = s.gOffset := rfl
@[simp] theorem State.invalidateSurface_gLen : (s.invalidateSurface).gLen = s.gLen := rfl
@[simp] theorem State.invalidateSurface_gValid : (s.invalidateSurface).gValid = s.gValid := rfl
@[simp] theorem State.invalidateSurface_faultReg : (s.invalidateSurface).faultReg = s.faultReg := rfl
@[simp] theorem State.invalidateSurface_pix : (s.invalidateSurface).pix = s.pix := rfl
@[simp] theorem State.invalidateSurface_gly : (s.invalidateSurface).gly = s.gly := rfl
@[simp] theorem State.invalidateSurface_inbox : (s.invalidateSurface).inbox = s.inbox := rfl
@[simp] theorem State.invalidateSurface_outbox : (s.invalidateSurface).outbox = s.outbox := rfl
@[simp] theorem State.invalidateSurface_bigEndian : (s.invalidateSurface).bigEndian = s.bigEndian := rfl
@[simp] theorem State.invalidateSurface_pfWritten : (s.invalidateSurface).pfWritten = s.pfWritten := rfl
@[simp] theorem State.invalidateSurface_gWritten : (s.invalidateSurface).gWritten = s.gWritten := rfl
@[simp] theorem State.invalidateSurface_draws : (s.invalidateSurface).draws = s.draws := rfl

/-! ## setGlyph -/

@[simp] theorem State.setGlyph_pfFormat (b : BitVec 4) (w h : BitVec 8) (o n : BitVec 32) :
    (s.setGlyph b w h o n).pfFormat = s.pfFormat := rfl
@[simp] theorem State.setGlyph_pfStride (b : BitVec 4) (w h : BitVec 8) (o n : BitVec 32) :
    (s.setGlyph b w h o n).pfStride = s.pfStride := rfl
@[simp] theorem State.setGlyph_pfLen (b : BitVec 4) (w h : BitVec 8) (o n : BitVec 32) :
    (s.setGlyph b w h o n).pfLen = s.pfLen := rfl
@[simp] theorem State.setGlyph_pfValid (b : BitVec 4) (w h : BitVec 8) (o n : BitVec 32) :
    (s.setGlyph b w h o n).pfValid = s.pfValid := rfl
@[simp] theorem State.setGlyph_gBpp (b : BitVec 4) (w h : BitVec 8) (o n : BitVec 32) :
    (s.setGlyph b w h o n).gBpp = b := rfl
@[simp] theorem State.setGlyph_gWidth (b : BitVec 4) (w h : BitVec 8) (o n : BitVec 32) :
    (s.setGlyph b w h o n).gWidth = w := rfl
@[simp] theorem State.setGlyph_gHeight (b : BitVec 4) (w h : BitVec 8) (o n : BitVec 32) :
    (s.setGlyph b w h o n).gHeight = h := rfl
@[simp] theorem State.setGlyph_gOffset (b : BitVec 4) (w h : BitVec 8) (o n : BitVec 32) :
    (s.setGlyph b w h o n).gOffset = o := rfl
@[simp] theorem State.setGlyph_gLen (b : BitVec 4) (w h : BitVec 8) (o n : BitVec 32) :
    (s.setGlyph b w h o n).gLen = n := rfl
@[simp] theorem State.setGlyph_gValid (b : BitVec 4) (w h : BitVec 8) (o n : BitVec 32) :
    (s.setGlyph b w h o n).gValid = true := rfl
@[simp] theorem State.setGlyph_faultReg (b : BitVec 4) (w h : BitVec 8) (o n : BitVec 32) :
    (s.setGlyph b w h o n).faultReg = s.faultReg := rfl
@[simp] theorem State.setGlyph_pix (b : BitVec 4) (w h : BitVec 8) (o n : BitVec 32) :
    (s.setGlyph b w h o n).pix = s.pix := rfl
@[simp] theorem State.setGlyph_gly (b : BitVec 4) (w h : BitVec 8) (o n : BitVec 32) :
    (s.setGlyph b w h o n).gly = s.gly := rfl
@[simp] theorem State.setGlyph_inbox (b : BitVec 4) (w h : BitVec 8) (o n : BitVec 32) :
    (s.setGlyph b w h o n).inbox = s.inbox := rfl
@[simp] theorem State.setGlyph_outbox (b : BitVec 4) (w h : BitVec 8) (o n : BitVec 32) :
    (s.setGlyph b w h o n).outbox = s.outbox := rfl
@[simp] theorem State.setGlyph_bigEndian (b : BitVec 4) (w h : BitVec 8) (o n : BitVec 32) :
    (s.setGlyph b w h o n).bigEndian = s.bigEndian := rfl
@[simp] theorem State.setGlyph_pfWritten (b : BitVec 4) (w h : BitVec 8) (o n : BitVec 32) :
    (s.setGlyph b w h o n).pfWritten = s.pfWritten := rfl
@[simp] theorem State.setGlyph_gWritten (b : BitVec 4) (w h : BitVec 8) (o n : BitVec 32) :
    (s.setGlyph b w h o n).gWritten = true := rfl
@[simp] theorem State.setGlyph_draws (b : BitVec 4) (w h : BitVec 8) (o n : BitVec 32) :
    (s.setGlyph b w h o n).draws = s.draws := rfl

/-! ## invalidateGlyph -/

@[simp] theorem State.invalidateGlyph_pfFormat : (s.invalidateGlyph).pfFormat = s.pfFormat := rfl
@[simp] theorem State.invalidateGlyph_pfStride : (s.invalidateGlyph).pfStride = s.pfStride := rfl
@[simp] theorem State.invalidateGlyph_pfLen : (s.invalidateGlyph).pfLen = s.pfLen := rfl
@[simp] theorem State.invalidateGlyph_pfValid : (s.invalidateGlyph).pfValid = s.pfValid := rfl
@[simp] theorem State.invalidateGlyph_gBpp : (s.invalidateGlyph).gBpp = s.gBpp := rfl
@[simp] theorem State.invalidateGlyph_gWidth : (s.invalidateGlyph).gWidth = s.gWidth := rfl
@[simp] theorem State.invalidateGlyph_gHeight : (s.invalidateGlyph).gHeight = s.gHeight := rfl
@[simp] theorem State.invalidateGlyph_gOffset : (s.invalidateGlyph).gOffset = s.gOffset := rfl
@[simp] theorem State.invalidateGlyph_gLen : (s.invalidateGlyph).gLen = s.gLen := rfl
@[simp] theorem State.invalidateGlyph_gValid : (s.invalidateGlyph).gValid = false := rfl
@[simp] theorem State.invalidateGlyph_faultReg : (s.invalidateGlyph).faultReg = s.faultReg := rfl
@[simp] theorem State.invalidateGlyph_pix : (s.invalidateGlyph).pix = s.pix := rfl
@[simp] theorem State.invalidateGlyph_gly : (s.invalidateGlyph).gly = s.gly := rfl
@[simp] theorem State.invalidateGlyph_inbox : (s.invalidateGlyph).inbox = s.inbox := rfl
@[simp] theorem State.invalidateGlyph_outbox : (s.invalidateGlyph).outbox = s.outbox := rfl
@[simp] theorem State.invalidateGlyph_bigEndian : (s.invalidateGlyph).bigEndian = s.bigEndian := rfl
@[simp] theorem State.invalidateGlyph_pfWritten : (s.invalidateGlyph).pfWritten = s.pfWritten := rfl
@[simp] theorem State.invalidateGlyph_gWritten : (s.invalidateGlyph).gWritten = s.gWritten := rfl
@[simp] theorem State.invalidateGlyph_draws : (s.invalidateGlyph).draws = s.draws := rfl

/-! ## setPix -/

@[simp] theorem State.setPix_pfFormat (m : Memory) : (s.setPix m).pfFormat = s.pfFormat := rfl
@[simp] theorem State.setPix_pfStride (m : Memory) : (s.setPix m).pfStride = s.pfStride := rfl
@[simp] theorem State.setPix_pfLen (m : Memory) : (s.setPix m).pfLen = s.pfLen := rfl
@[simp] theorem State.setPix_pfValid (m : Memory) : (s.setPix m).pfValid = s.pfValid := rfl
@[simp] theorem State.setPix_gBpp (m : Memory) : (s.setPix m).gBpp = s.gBpp := rfl
@[simp] theorem State.setPix_gWidth (m : Memory) : (s.setPix m).gWidth = s.gWidth := rfl
@[simp] theorem State.setPix_gHeight (m : Memory) : (s.setPix m).gHeight = s.gHeight := rfl
@[simp] theorem State.setPix_gOffset (m : Memory) : (s.setPix m).gOffset = s.gOffset := rfl
@[simp] theorem State.setPix_gLen (m : Memory) : (s.setPix m).gLen = s.gLen := rfl
@[simp] theorem State.setPix_gValid (m : Memory) : (s.setPix m).gValid = s.gValid := rfl
@[simp] theorem State.setPix_faultReg (m : Memory) : (s.setPix m).faultReg = s.faultReg := rfl
@[simp] theorem State.setPix_pix (m : Memory) : (s.setPix m).pix = m := rfl
@[simp] theorem State.setPix_gly (m : Memory) : (s.setPix m).gly = s.gly := rfl
@[simp] theorem State.setPix_inbox (m : Memory) : (s.setPix m).inbox = s.inbox := rfl
@[simp] theorem State.setPix_outbox (m : Memory) : (s.setPix m).outbox = s.outbox := rfl
@[simp] theorem State.setPix_bigEndian (m : Memory) : (s.setPix m).bigEndian = s.bigEndian := rfl
@[simp] theorem State.setPix_pfWritten (m : Memory) : (s.setPix m).pfWritten = s.pfWritten := rfl
@[simp] theorem State.setPix_gWritten (m : Memory) : (s.setPix m).gWritten = s.gWritten := rfl
@[simp] theorem State.setPix_draws (m : Memory) : (s.setPix m).draws = s.draws := rfl

/-! ## setGly -/

@[simp] theorem State.setGly_pfFormat (m : Memory) : (s.setGly m).pfFormat = s.pfFormat := rfl
@[simp] theorem State.setGly_pfStride (m : Memory) : (s.setGly m).pfStride = s.pfStride := rfl
@[simp] theorem State.setGly_pfLen (m : Memory) : (s.setGly m).pfLen = s.pfLen := rfl
@[simp] theorem State.setGly_pfValid (m : Memory) : (s.setGly m).pfValid = s.pfValid := rfl
@[simp] theorem State.setGly_gBpp (m : Memory) : (s.setGly m).gBpp = s.gBpp := rfl
@[simp] theorem State.setGly_gWidth (m : Memory) : (s.setGly m).gWidth = s.gWidth := rfl
@[simp] theorem State.setGly_gHeight (m : Memory) : (s.setGly m).gHeight = s.gHeight := rfl
@[simp] theorem State.setGly_gOffset (m : Memory) : (s.setGly m).gOffset = s.gOffset := rfl
@[simp] theorem State.setGly_gLen (m : Memory) : (s.setGly m).gLen = s.gLen := rfl
@[simp] theorem State.setGly_gValid (m : Memory) : (s.setGly m).gValid = s.gValid := rfl
@[simp] theorem State.setGly_faultReg (m : Memory) : (s.setGly m).faultReg = s.faultReg := rfl
@[simp] theorem State.setGly_pix (m : Memory) : (s.setGly m).pix = s.pix := rfl
@[simp] theorem State.setGly_gly (m : Memory) : (s.setGly m).gly = m := rfl
@[simp] theorem State.setGly_inbox (m : Memory) : (s.setGly m).inbox = s.inbox := rfl
@[simp] theorem State.setGly_outbox (m : Memory) : (s.setGly m).outbox = s.outbox := rfl
@[simp] theorem State.setGly_bigEndian (m : Memory) : (s.setGly m).bigEndian = s.bigEndian := rfl
@[simp] theorem State.setGly_pfWritten (m : Memory) : (s.setGly m).pfWritten = s.pfWritten := rfl
@[simp] theorem State.setGly_gWritten (m : Memory) : (s.setGly m).gWritten = s.gWritten := rfl
@[simp] theorem State.setGly_draws (m : Memory) : (s.setGly m).draws = s.draws := rfl

/-! ## setInbox -/

@[simp] theorem State.setInbox_pfFormat (l : List HostMove) : (s.setInbox l).pfFormat = s.pfFormat := rfl
@[simp] theorem State.setInbox_pfStride (l : List HostMove) : (s.setInbox l).pfStride = s.pfStride := rfl
@[simp] theorem State.setInbox_pfLen (l : List HostMove) : (s.setInbox l).pfLen = s.pfLen := rfl
@[simp] theorem State.setInbox_pfValid (l : List HostMove) : (s.setInbox l).pfValid = s.pfValid := rfl
@[simp] theorem State.setInbox_gBpp (l : List HostMove) : (s.setInbox l).gBpp = s.gBpp := rfl
@[simp] theorem State.setInbox_gWidth (l : List HostMove) : (s.setInbox l).gWidth = s.gWidth := rfl
@[simp] theorem State.setInbox_gHeight (l : List HostMove) : (s.setInbox l).gHeight = s.gHeight := rfl
@[simp] theorem State.setInbox_gOffset (l : List HostMove) : (s.setInbox l).gOffset = s.gOffset := rfl
@[simp] theorem State.setInbox_gLen (l : List HostMove) : (s.setInbox l).gLen = s.gLen := rfl
@[simp] theorem State.setInbox_gValid (l : List HostMove) : (s.setInbox l).gValid = s.gValid := rfl
@[simp] theorem State.setInbox_faultReg (l : List HostMove) : (s.setInbox l).faultReg = s.faultReg := rfl
@[simp] theorem State.setInbox_pix (l : List HostMove) : (s.setInbox l).pix = s.pix := rfl
@[simp] theorem State.setInbox_gly (l : List HostMove) : (s.setInbox l).gly = s.gly := rfl
@[simp] theorem State.setInbox_inbox (l : List HostMove) : (s.setInbox l).inbox = l := rfl
@[simp] theorem State.setInbox_outbox (l : List HostMove) : (s.setInbox l).outbox = s.outbox := rfl
@[simp] theorem State.setInbox_bigEndian (l : List HostMove) : (s.setInbox l).bigEndian = s.bigEndian := rfl
@[simp] theorem State.setInbox_pfWritten (l : List HostMove) : (s.setInbox l).pfWritten = s.pfWritten := rfl
@[simp] theorem State.setInbox_gWritten (l : List HostMove) : (s.setInbox l).gWritten = s.gWritten := rfl
@[simp] theorem State.setInbox_draws (l : List HostMove) : (s.setInbox l).draws = s.draws := rfl

/-! ## countDraw -/

@[simp] theorem State.countDraw_pfFormat : (s.countDraw).pfFormat = s.pfFormat := rfl
@[simp] theorem State.countDraw_pfStride : (s.countDraw).pfStride = s.pfStride := rfl
@[simp] theorem State.countDraw_pfLen : (s.countDraw).pfLen = s.pfLen := rfl
@[simp] theorem State.countDraw_pfValid : (s.countDraw).pfValid = s.pfValid := rfl
@[simp] theorem State.countDraw_gBpp : (s.countDraw).gBpp = s.gBpp := rfl
@[simp] theorem State.countDraw_gWidth : (s.countDraw).gWidth = s.gWidth := rfl
@[simp] theorem State.countDraw_gHeight : (s.countDraw).gHeight = s.gHeight := rfl
@[simp] theorem State.countDraw_gOffset : (s.countDraw).gOffset = s.gOffset := rfl
@[simp] theorem State.countDraw_gLen : (s.countDraw).gLen = s.gLen := rfl
@[simp] theorem State.countDraw_gValid : (s.countDraw).gValid = s.gValid := rfl
@[simp] theorem State.countDraw_faultReg : (s.countDraw).faultReg = s.faultReg := rfl
@[simp] theorem State.countDraw_pix : (s.countDraw).pix = s.pix := rfl
@[simp] theorem State.countDraw_gly : (s.countDraw).gly = s.gly := rfl
@[simp] theorem State.countDraw_inbox : (s.countDraw).inbox = s.inbox := rfl
@[simp] theorem State.countDraw_outbox : (s.countDraw).outbox = s.outbox := rfl
@[simp] theorem State.countDraw_bigEndian : (s.countDraw).bigEndian = s.bigEndian := rfl
@[simp] theorem State.countDraw_pfWritten : (s.countDraw).pfWritten = s.pfWritten := rfl
@[simp] theorem State.countDraw_gWritten : (s.countDraw).gWritten = s.gWritten := rfl
@[simp] theorem State.countDraw_draws : (s.countDraw).draws = s.draws + 1 := rfl

/-! ## resetRegisters -/

@[simp] theorem State.resetRegisters_pfFormat : (s.resetRegisters).pfFormat = State.reset.pfFormat := rfl
@[simp] theorem State.resetRegisters_pfStride : (s.resetRegisters).pfStride = State.reset.pfStride := rfl
@[simp] theorem State.resetRegisters_pfLen : (s.resetRegisters).pfLen = State.reset.pfLen := rfl
@[simp] theorem State.resetRegisters_pfValid : (s.resetRegisters).pfValid = State.reset.pfValid := rfl
@[simp] theorem State.resetRegisters_gBpp : (s.resetRegisters).gBpp = State.reset.gBpp := rfl
@[simp] theorem State.resetRegisters_gWidth : (s.resetRegisters).gWidth = State.reset.gWidth := rfl
@[simp] theorem State.resetRegisters_gHeight : (s.resetRegisters).gHeight = State.reset.gHeight := rfl
@[simp] theorem State.resetRegisters_gOffset : (s.resetRegisters).gOffset = State.reset.gOffset := rfl
@[simp] theorem State.resetRegisters_gLen : (s.resetRegisters).gLen = State.reset.gLen := rfl
@[simp] theorem State.resetRegisters_gValid : (s.resetRegisters).gValid = State.reset.gValid := rfl
@[simp] theorem State.resetRegisters_faultReg : (s.resetRegisters).faultReg = State.reset.faultReg := rfl
@[simp] theorem State.resetRegisters_pix : (s.resetRegisters).pix = s.pix := rfl
@[simp] theorem State.resetRegisters_gly : (s.resetRegisters).gly = s.gly := rfl
@[simp] theorem State.resetRegisters_inbox : (s.resetRegisters).inbox = s.inbox := rfl
@[simp] theorem State.resetRegisters_outbox : (s.resetRegisters).outbox = s.outbox := rfl
@[simp] theorem State.resetRegisters_bigEndian : (s.resetRegisters).bigEndian = s.bigEndian := rfl
@[simp] theorem State.resetRegisters_pfWritten : (s.resetRegisters).pfWritten = State.reset.pfWritten := rfl
@[simp] theorem State.resetRegisters_gWritten : (s.resetRegisters).gWritten = State.reset.gWritten := rfl
@[simp] theorem State.resetRegisters_draws : (s.resetRegisters).draws = s.draws := rfl

/-! ## abandon -/

@[simp] theorem State.abandon_pfFormat (m : Memory) : (s.abandon m).pfFormat = State.reset.pfFormat := rfl
@[simp] theorem State.abandon_pfStride (m : Memory) : (s.abandon m).pfStride = State.reset.pfStride := rfl
@[simp] theorem State.abandon_pfLen (m : Memory) : (s.abandon m).pfLen = State.reset.pfLen := rfl
@[simp] theorem State.abandon_pfValid (m : Memory) : (s.abandon m).pfValid = State.reset.pfValid := rfl
@[simp] theorem State.abandon_gBpp (m : Memory) : (s.abandon m).gBpp = State.reset.gBpp := rfl
@[simp] theorem State.abandon_gWidth (m : Memory) : (s.abandon m).gWidth = State.reset.gWidth := rfl
@[simp] theorem State.abandon_gHeight (m : Memory) : (s.abandon m).gHeight = State.reset.gHeight := rfl
@[simp] theorem State.abandon_gOffset (m : Memory) : (s.abandon m).gOffset = State.reset.gOffset := rfl
@[simp] theorem State.abandon_gLen (m : Memory) : (s.abandon m).gLen = State.reset.gLen := rfl
@[simp] theorem State.abandon_gValid (m : Memory) : (s.abandon m).gValid = State.reset.gValid := rfl
@[simp] theorem State.abandon_faultReg (m : Memory) : (s.abandon m).faultReg = State.reset.faultReg := rfl
@[simp] theorem State.abandon_pix (m : Memory) :
    (s.abandon m).pix = Memory.mix (Config.freeBit s.draws) s.pix m := rfl
@[simp] theorem State.abandon_gly (m : Memory) : (s.abandon m).gly = s.gly := rfl
@[simp] theorem State.abandon_inbox (m : Memory) : (s.abandon m).inbox = s.inbox := rfl
@[simp] theorem State.abandon_outbox (m : Memory) : (s.abandon m).outbox = s.outbox := rfl
@[simp] theorem State.abandon_bigEndian (m : Memory) : (s.abandon m).bigEndian = s.bigEndian := rfl
@[simp] theorem State.abandon_pfWritten (m : Memory) : (s.abandon m).pfWritten = State.reset.pfWritten := rfl
@[simp] theorem State.abandon_gWritten (m : Memory) : (s.abandon m).gWritten = State.reset.gWritten := rfl
@[simp] theorem State.abandon_draws (m : Memory) : (s.abandon m).draws = s.draws + 1 := rfl

/-! ## hostWritePix -/

@[simp] theorem State.hostWritePix_pfFormat (o : BitVec 32) (b : Byte) :
    (s.hostWritePix o b).pfFormat = s.pfFormat := rfl
@[simp] theorem State.hostWritePix_pfStride (o : BitVec 32) (b : Byte) :
    (s.hostWritePix o b).pfStride = s.pfStride := rfl
@[simp] theorem State.hostWritePix_pfLen (o : BitVec 32) (b : Byte) : (s.hostWritePix o b).pfLen = s.pfLen := rfl
@[simp] theorem State.hostWritePix_pfValid (o : BitVec 32) (b : Byte) :
    (s.hostWritePix o b).pfValid = s.pfValid := rfl
@[simp] theorem State.hostWritePix_gBpp (o : BitVec 32) (b : Byte) : (s.hostWritePix o b).gBpp = s.gBpp := rfl
@[simp] theorem State.hostWritePix_gWidth (o : BitVec 32) (b : Byte) : (s.hostWritePix o b).gWidth = s.gWidth := rfl
@[simp] theorem State.hostWritePix_gHeight (o : BitVec 32) (b : Byte) :
    (s.hostWritePix o b).gHeight = s.gHeight := rfl
@[simp] theorem State.hostWritePix_gOffset (o : BitVec 32) (b : Byte) :
    (s.hostWritePix o b).gOffset = s.gOffset := rfl
@[simp] theorem State.hostWritePix_gLen (o : BitVec 32) (b : Byte) : (s.hostWritePix o b).gLen = s.gLen := rfl
@[simp] theorem State.hostWritePix_gValid (o : BitVec 32) (b : Byte) : (s.hostWritePix o b).gValid = s.gValid := rfl
@[simp] theorem State.hostWritePix_faultReg (o : BitVec 32) (b : Byte) :
    (s.hostWritePix o b).faultReg = s.faultReg := rfl
@[simp] theorem State.hostWritePix_pix (o : BitVec 32) (b : Byte) :
    (s.hostWritePix o b).pix = s.pix.write o.toNat b := rfl
@[simp] theorem State.hostWritePix_gly (o : BitVec 32) (b : Byte) : (s.hostWritePix o b).gly = s.gly := rfl
@[simp] theorem State.hostWritePix_inbox (o : BitVec 32) (b : Byte) : (s.hostWritePix o b).inbox = s.inbox := rfl
@[simp] theorem State.hostWritePix_outbox (o : BitVec 32) (b : Byte) : (s.hostWritePix o b).outbox = s.outbox := rfl
@[simp] theorem State.hostWritePix_bigEndian (o : BitVec 32) (b : Byte) :
    (s.hostWritePix o b).bigEndian = s.bigEndian := rfl
@[simp] theorem State.hostWritePix_pfWritten (o : BitVec 32) (b : Byte) :
    (s.hostWritePix o b).pfWritten = s.pfWritten := rfl
@[simp] theorem State.hostWritePix_gWritten (o : BitVec 32) (b : Byte) :
    (s.hostWritePix o b).gWritten = s.gWritten := rfl
@[simp] theorem State.hostWritePix_draws (o : BitVec 32) (b : Byte) : (s.hostWritePix o b).draws = s.draws := rfl

/-! ## hostWriteGly -/

@[simp] theorem State.hostWriteGly_pfFormat (o : BitVec 32) (b : Byte) :
    (s.hostWriteGly o b).pfFormat = s.pfFormat := rfl
@[simp] theorem State.hostWriteGly_pfStride (o : BitVec 32) (b : Byte) :
    (s.hostWriteGly o b).pfStride = s.pfStride := rfl
@[simp] theorem State.hostWriteGly_pfLen (o : BitVec 32) (b : Byte) : (s.hostWriteGly o b).pfLen = s.pfLen := rfl
@[simp] theorem State.hostWriteGly_pfValid (o : BitVec 32) (b : Byte) :
    (s.hostWriteGly o b).pfValid = s.pfValid := rfl
@[simp] theorem State.hostWriteGly_gBpp (o : BitVec 32) (b : Byte) : (s.hostWriteGly o b).gBpp = s.gBpp := rfl
@[simp] theorem State.hostWriteGly_gWidth (o : BitVec 32) (b : Byte) : (s.hostWriteGly o b).gWidth = s.gWidth := rfl
@[simp] theorem State.hostWriteGly_gHeight (o : BitVec 32) (b : Byte) :
    (s.hostWriteGly o b).gHeight = s.gHeight := rfl
@[simp] theorem State.hostWriteGly_gOffset (o : BitVec 32) (b : Byte) :
    (s.hostWriteGly o b).gOffset = s.gOffset := rfl
@[simp] theorem State.hostWriteGly_gLen (o : BitVec 32) (b : Byte) : (s.hostWriteGly o b).gLen = s.gLen := rfl
@[simp] theorem State.hostWriteGly_gValid (o : BitVec 32) (b : Byte) : (s.hostWriteGly o b).gValid = s.gValid := rfl
@[simp] theorem State.hostWriteGly_faultReg (o : BitVec 32) (b : Byte) :
    (s.hostWriteGly o b).faultReg = s.faultReg := rfl
@[simp] theorem State.hostWriteGly_pix (o : BitVec 32) (b : Byte) : (s.hostWriteGly o b).pix = s.pix := rfl
@[simp] theorem State.hostWriteGly_gly (o : BitVec 32) (b : Byte) :
    (s.hostWriteGly o b).gly = s.gly.write o.toNat b := rfl
@[simp] theorem State.hostWriteGly_inbox (o : BitVec 32) (b : Byte) : (s.hostWriteGly o b).inbox = s.inbox := rfl
@[simp] theorem State.hostWriteGly_outbox (o : BitVec 32) (b : Byte) : (s.hostWriteGly o b).outbox = s.outbox := rfl
@[simp] theorem State.hostWriteGly_bigEndian (o : BitVec 32) (b : Byte) :
    (s.hostWriteGly o b).bigEndian = s.bigEndian := rfl
@[simp] theorem State.hostWriteGly_pfWritten (o : BitVec 32) (b : Byte) :
    (s.hostWriteGly o b).pfWritten = s.pfWritten := rfl
@[simp] theorem State.hostWriteGly_gWritten (o : BitVec 32) (b : Byte) :
    (s.hostWriteGly o b).gWritten = s.gWritten := rfl
@[simp] theorem State.hostWriteGly_draws (o : BitVec 32) (b : Byte) : (s.hostWriteGly o b).draws = s.draws := rfl

end Sys2Proof.Machine
end

