-- ==== Sys2Proof/Laws/Meanings.lean ====
section
/-! SUPPORT. For each shared operation, one lemma that says everything it can do, with the condition of each case; and
the meaning of a variant in terms of its format or depth. Later proofs cite these and unfold no meaning. -/

namespace Sys2Proof.Machine

/-! ## What each shared operation can do -/

/-- Everything CFGS can do (40_config.md R80, R81). -/
theorem configureSurface_cases (fmt : BitVec 8) (stride : BitVec 16) (len : BitVec 32) (s : State) :
    (7 < fmt.toNat ∧ configureSurface fmt stride len s = s.invalidateSurface.raise .badFormat) ∨
    (fmt.toNat ≤ 7 ∧ configureSurface fmt stride len s =
      (s.setSurface (fmt.setWidth 3)
        (BitVec.ofNat 17 (roundUp stride.toNat (formatGranularity (PixFormat.ofCode (fmt.setWidth 3))))) len).respond 0) := by
  by_cases h : fmt.toNat > 7
  · exact .inl ⟨h, by simp [configureSurface, h]⟩
  · exact .inr ⟨by omega, by simp [configureSurface, h]⟩

/-- Everything CFGG can do (40_config.md R83, R84). -/
theorem configureGlyph_cases (bpp width height : BitVec 8) (offset len : BitVec 32) (s : State) :
    (Depth.ofBits bpp.toNat = none ∧
      configureGlyph bpp width height offset len s = s.invalidateGlyph.raise .badBpp) ∨
    (∃ d, Depth.ofBits bpp.toNat = some d ∧ configureGlyph bpp width height offset len s =
      (s.setGlyph (bpp.setWidth 4) width height offset len).respond 0) := by
  unfold configureGlyph
  cases h : Depth.ofBits bpp.toNat with
  | none => exact .inl ⟨rfl, rfl⟩
  | some d => exact .inr ⟨d, rfl, rfl⟩

/-- Everything RDREG can do (40_config.md R85). -/
theorem readRegister_cases (reg : BitVec 8) (s : State) :
    (9 < reg.toNat ∧ readRegister reg s = s.raise .illegalCmd) ∨
    (reg.toNat ≤ 9 ∧ registerOpen reg.toNat s = true ∧
      readRegister reg s = s.countDraw.respond (drawnValue reg.toNat s)) ∨
    (reg.toNat ≤ 9 ∧ registerOpen reg.toNat s = false ∧
      readRegister reg s = s.respond (registerValue reg.toNat s)) := by
  unfold readRegister
  by_cases h : reg.toNat > 9
  · exact .inl ⟨h, by simp [h]⟩
  · cases ho : registerOpen reg.toNat s
    · exact .inr (.inr ⟨by omega, rfl, by simp [h]⟩)
    · exact .inr (.inl ⟨by omega, rfl, by simp [h]⟩)

/-- Everything PSET can do (41_pixel_set_get.md R99). -/
theorem setPixel_cases (place : Place) (c : Colour) (s : State) :
    (s.pfValid = false ∧ setPixel place c s = s.raise .notConfigured) ∨
    (s.pfValid = true ∧ s.pfLen.toNat ≤ place.last ∧ setPixel place c s = s.raise .pixAddr) ∨
    (s.pfValid = true ∧ place.last < s.pfLen.toNat ∧
      setPixel place c s = (s.setPix (place.store s.bigEndian s.pix c)).respond 0) := by
  unfold setPixel
  cases hv : s.pfValid
  · exact .inl ⟨rfl, by simp⟩
  · by_cases hl : place.last ≥ s.pfLen.toNat
    · exact .inr (.inl ⟨rfl, hl, by simp [hl]⟩)
    · exact .inr (.inr ⟨rfl, by omega, by simp [hl]⟩)

/-- Everything PGET can do (41_pixel_set_get.md R108). -/
theorem getPixel_cases (place : Place) (s : State) :
    (s.pfValid = false ∧ getPixel place s = s.raise .notConfigured) ∨
    (s.pfValid = true ∧ s.pfLen.toNat ≤ place.last ∧ getPixel place s = s.raise .pixAddr) ∨
    (s.pfValid = true ∧ place.last < s.pfLen.toNat ∧
      getPixel place s = s.respond (place.load s.bigEndian s.pix)) := by
  unfold getPixel
  cases hv : s.pfValid
  · exact .inl ⟨rfl, by simp⟩
  · by_cases hl : place.last ≥ s.pfLen.toNat
    · exact .inr (.inl ⟨rfl, hl, by simp [hl]⟩)
    · exact .inr (.inr ⟨rfl, by omega, by simp [hl]⟩)

/-- Everything PFILL can do (42_pixel_fill.md R123). -/
theorem fillRectangle_cases (place : Nat → Nat → Place) (x y w h : BitVec 16) (c : Colour) (s : State) :
    (s.pfValid = false ∧ fillRectangle place x y w h c s = s.raise .notConfigured) ∨
    (s.pfValid = true ∧ (w = 0 ∨ h = 0) ∧ fillRectangle place x y w h c s = s.respond 0) ∨
    (s.pfValid = true ∧ w ≠ 0 ∧ h ≠ 0 ∧
      s.pfLen.toNat ≤ topOffset place x.toNat y.toNat w.toNat h.toNat ∧
      fillRectangle place x y w h c s = s.raise .pixAddr) ∨
    (s.pfValid = true ∧ w ≠ 0 ∧ h ≠ 0 ∧
      topOffset place x.toNat y.toNat w.toNat h.toNat < s.pfLen.toNat ∧
      fillRectangle place x y w h c s =
        (s.setPix (fillPixels place s.bigEndian x.toNat y.toNat w.toNat h.toNat c s.pix)).respond 0) := by
  unfold fillRectangle
  cases hv : s.pfValid
  · exact .inl ⟨rfl, by simp⟩
  · by_cases he : w = 0 ∨ h = 0
    · exact .inr (.inl ⟨rfl, he, by rcases he with rfl | rfl <;> simp⟩)
    · have hw : w ≠ 0 := fun e => he (.inl e)
      have hh : h ≠ 0 := fun e => he (.inr e)
      by_cases hl : topOffset place x.toNat y.toNat w.toNat h.toNat ≥ s.pfLen.toNat
      · exact .inr (.inr (.inl ⟨rfl, hw, hh, hl, by simp only [Bool.true_eq_false, if_false, if_neg he, if_pos hl]⟩))
      · exact .inr (.inr (.inr ⟨rfl, hw, hh, by omega,
          by simp only [Bool.true_eq_false, if_false, if_neg he, if_neg hl]⟩))

/-- Everything GSIZE can do (43_glyph_sampler.md R142). -/
theorem glyphSize_cases (d : Depth) (s : State) :
    (s.gValid = false ∧ glyphSize d s = s.raise .notConfigured) ∨
    (s.gValid = true ∧ glyphSize d s =
      s.respond (BitVec.ofNat 32 (glyphRowBytes d.bits s.gWidth.toNat * s.gHeight.toNat))) := by
  unfold glyphSize
  cases hv : s.gValid
  · exact .inl ⟨rfl, by simp⟩
  · exact .inr ⟨rfl, by simp⟩

/-- Everything GSAMP can do (43_glyph_sampler.md R147). -/
theorem sampleGlyph_cases (d : Depth) (x y : BitVec 16) (s : State) :
    (s.gValid = false ∧ sampleGlyph d x y s = s.raise .notConfigured) ∨
    (s.gValid = true ∧ (s.gWidth.toNat ≤ x.toNat ∨ s.gHeight.toNat ≤ y.toNat) ∧
      sampleGlyph d x y s = s.raise .glyRange) ∨
    (s.gValid = true ∧ x.toNat < s.gWidth.toNat ∧ y.toNat < s.gHeight.toNat ∧
      s.gLen.toNat ≤ sampleByte d.bits s.gWidth.toNat s.gOffset.toNat x.toNat y.toNat ∧
      sampleGlyph d x y s = s.raise .glyAddr) ∨
    (s.gValid = true ∧ x.toNat < s.gWidth.toNat ∧ y.toNat < s.gHeight.toNat ∧
      sampleByte d.bits s.gWidth.toNat s.gOffset.toNat x.toNat y.toNat < s.gLen.toNat ∧
      sampleGlyph d x y s = s.respond ((sampleValue d.bits x.toNat
        (s.gly.read (sampleByte d.bits s.gWidth.toNat s.gOffset.toNat x.toNat y.toNat))).setWidth 32)) := by
  unfold sampleGlyph
  cases hv : s.gValid
  · exact .inl ⟨rfl, by simp⟩
  · by_cases hr : x.toNat ≥ s.gWidth.toNat ∨ y.toNat ≥ s.gHeight.toNat
    · exact .inr (.inl ⟨rfl, hr, by simp only [Bool.true_eq_false, if_false, if_pos hr]⟩)
    · by_cases hl : sampleByte d.bits s.gWidth.toNat s.gOffset.toNat x.toNat y.toNat ≥ s.gLen.toNat
      · exact .inr (.inr (.inl ⟨rfl, by omega, by omega, hl,
          by simp only [Bool.true_eq_false, if_false, if_neg hr, if_pos hl]⟩))
      · exact .inr (.inr (.inr ⟨rfl, by omega, by omega, by omega,
          by simp only [Bool.true_eq_false, if_false, if_neg hr, if_neg hl]⟩))

/-- Everything BLEND can do (44_alpha_blend.md R160). -/
theorem blendColours_cases (blend : Nat → Nat → Colour → Colour → Colour) (bpp a : BitVec 8) (fg bg : Colour)
    (s : State) :
    (Depth.ofBits bpp.toNat = none ∧ blendColours blend bpp a fg bg s = s.raise .badBpp) ∨
    (∃ d, Depth.ofBits bpp.toNat = some d ∧ s.pfValid = false ∧
      blendColours blend bpp a fg bg s = s.raise .notConfigured) ∨
    (∃ d, Depth.ofBits bpp.toNat = some d ∧ s.pfValid = true ∧ coverageMax d < a.toNat ∧
      blendColours blend bpp a fg bg s = s.raise .covRange) ∨
    (∃ d, Depth.ofBits bpp.toNat = some d ∧ s.pfValid = true ∧ a.toNat ≤ coverageMax d ∧
      blendColours blend bpp a fg bg s =
        s.respond ((blend (coverageMax d) a.toNat fg bg).setWidth 32)) := by
  unfold blendColours
  cases hd : Depth.ofBits bpp.toNat with
  | none => exact .inl ⟨rfl, rfl⟩
  | some d =>
    cases hv : s.pfValid
    · exact .inr (.inl ⟨d, rfl, rfl, by simp⟩)
    · by_cases ha : a.toNat > coverageMax d
      · exact .inr (.inr (.inl ⟨d, rfl, rfl, ha, by simp [ha]⟩))
      · exact .inr (.inr (.inr ⟨d, rfl, rfl, by omega, by simp [ha]⟩))

/-- The depths are the numbers 1, 2, 4 and 8. -/
theorem ofBits_eq_some_iff (n : Nat) (d : Depth) : Depth.ofBits n = some d ↔ n = d.bits := by
  unfold Depth.ofBits
  cases d <;> simp only [Depth.bits] <;> split_ifs <;> simp_all

/-- Every other number is no depth. -/
theorem ofBits_eq_none_iff (n : Nat) : Depth.ofBits n = none ↔ ¬ (n = 1 ∨ n = 2 ∨ n = 4 ∨ n = 8) := by
  unfold Depth.ofBits
  split_ifs <;> simp_all

/-! ## The meaning of a variant, by its format or depth -/

/-- PSET in the variant of a format. -/
@[simp] theorem exec_psetVariant (f : PixFormat) (x y : BitVec 16) (c : Colour) (s : State) :
    exec (psetVariant f x y c) s = .next (setPixel (placeOf f s.pfStride.toNat x.toNat y.toNat) c s) := by
  cases f <;> rfl

/-- PGET in the variant of a format. -/
@[simp] theorem exec_pgetVariant (f : PixFormat) (x y : BitVec 16) (s : State) :
    exec (pgetVariant f x y) s = .next (getPixel (placeOf f s.pfStride.toNat x.toNat y.toNat) s) := by
  cases f <;> rfl

/-- PFILL in the variant of a format. -/
@[simp] theorem exec_pfillVariant (f : PixFormat) (x y w h : BitVec 16) (c : Colour) (s : State) :
    exec (pfillVariant f x y w h c) s = .next (fillRectangle (placeOf f s.pfStride.toNat) x y w h c s) := by
  cases f <;> rfl

/-- GSIZE in the variant of a depth. -/
@[simp] theorem exec_gsizeVariant (d : Depth) (s : State) : exec (gsizeVariant d) s = .next (glyphSize d s) := by
  cases d <;> rfl

/-- GSAMP in the variant of a depth. -/
@[simp] theorem exec_gsampVariant (d : Depth) (x y : BitVec 16) (s : State) :
    exec (gsampVariant d x y) s = .next (sampleGlyph d x y s) := by
  cases d <;> rfl

/-- The blend function of a format (44_alpha_blend.md R165 to R172). -/
def blendOf (f : PixFormat) : Nat → Nat → Colour → Colour → Colour :=
  match f with
  | .rgb565 => blendFields
  | f => blendSingle (formatMax f)

/-- BLEND in the variant of a format. -/
@[simp] theorem exec_blendVariant (f : PixFormat) (bpp a : BitVec 8) (fg bg : Colour) (s : State) :
    exec (blendVariant f bpp a fg bg) s = .next (blendColours (blendOf f) bpp a fg bg s) := by
  cases f <;> rfl

/-- Every instruction is one of the nine shapes. -/
theorem instr_shapes (P : Instr → Prop)
    (cfgs : ∀ fmt stride len, P (.cfgs fmt stride len))
    (cfgg : ∀ bpp width height offset len, P (.cfgg bpp width height offset len))
    (rdreg : ∀ reg, P (.rdreg reg))
    (pset : ∀ f x y c, P (psetVariant f x y c))
    (pget : ∀ f x y, P (pgetVariant f x y))
    (pfill : ∀ f x y w h c, P (pfillVariant f x y w h c))
    (gsize : ∀ d, P (gsizeVariant d))
    (gsamp : ∀ d x y, P (gsampVariant d x y))
    (blend : ∀ f bpp a fg bg, P (blendVariant f bpp a fg bg)) (i : Instr) : P i := by
  cases i with
  | cfgs fmt stride len => exact cfgs fmt stride len
  | cfgg bpp width height offset len => exact cfgg bpp width height offset len
  | rdreg reg => exact rdreg reg
  | psetM1RM x y c => exact pset .m1rm x y c
  | psetM1RL x y c => exact pset .m1rl x y c
  | psetM1C x y c => exact pset .m1c x y c
  | psetRGB565 x y c => exact pset .rgb565 x y c
  | psetG2R x y c => exact pset .g2r x y c
  | psetG4RM x y c => exact pset .g4rm x y c
  | psetG4RL x y c => exact pset .g4rl x y c
  | psetG8 x y c => exact pset .g8 x y c
  | pgetM1RM x y => exact pget .m1rm x y
  | pgetM1RL x y => exact pget .m1rl x y
  | pgetM1C x y => exact pget .m1c x y
  | pgetRGB565 x y => exact pget .rgb565 x y
  | pgetG2R x y => exact pget .g2r x y
  | pgetG4RM x y => exact pget .g4rm x y
  | pgetG4RL x y => exact pget .g4rl x y
  | pgetG8 x y => exact pget .g8 x y
  | pfillM1RM x y w h c => exact pfill .m1rm x y w h c
  | pfillM1RL x y w h c => exact pfill .m1rl x y w h c
  | pfillM1C x y w h c => exact pfill .m1c x y w h c
  | pfillRGB565 x y w h c => exact pfill .rgb565 x y w h c
  | pfillG2R x y w h c => exact pfill .g2r x y w h c
  | pfillG4RM x y w h c => exact pfill .g4rm x y w h c
  | pfillG4RL x y w h c => exact pfill .g4rl x y w h c
  | pfillG8 x y w h c => exact pfill .g8 x y w h c
  | gsize1 => exact gsize .d1
  | gsize2 => exact gsize .d2
  | gsize4 => exact gsize .d4
  | gsize8 => exact gsize .d8
  | gsamp1 x y => exact gsamp .d1 x y
  | gsamp2 x y => exact gsamp .d2 x y
  | gsamp4 x y => exact gsamp .d4 x y
  | gsamp8 x y => exact gsamp .d8 x y
  | blendM1RM bpp a fg bg => exact blend .m1rm bpp a fg bg
  | blendM1RL bpp a fg bg => exact blend .m1rl bpp a fg bg
  | blendM1C bpp a fg bg => exact blend .m1c bpp a fg bg
  | blendRGB565 bpp a fg bg => exact blend .rgb565 bpp a fg bg
  | blendG2R bpp a fg bg => exact blend .g2r bpp a fg bg
  | blendG4RM bpp a fg bg => exact blend .g4rm bpp a fg bg
  | blendG4RL bpp a fg bg => exact blend .g4rl bpp a fg bg
  | blendG8 bpp a fg bg => exact blend .g8 bpp a fg bg

/-! ## Fills -/

/-- A property that every pixel store in a rectangle keeps holds of the filled memory. -/
theorem fillPixels_keeps (P : Memory → Prop) (place : Nat → Nat → Place) (big : Bool) (x y w h : Nat) (c : Colour)
    (m : Memory)
    (step : ∀ xx yy, x ≤ xx → xx < x + w → y ≤ yy → yy < y + h → ∀ n, P n → P ((place xx yy).store big n c))
    (start : P m) : P (fillPixels place big x y w h c m) :=
  forRange_keeps P y h _ m
    (fun yy hy1 hy2 row hrow =>
      forRange_keeps P x w _ row (fun xx hx1 hx2 mem hmem => step xx yy hx1 hx2 hy1 hy2 mem hmem) hrow)
    start

/-- A fill keeps the canonical form. -/
theorem fillPixels_wf (place : Nat → Nat → Place) (big : Bool) (x y w h : Nat) (c : Colour) {m : Memory}
    (hm : m.wf = true) : (fillPixels place big x y w h c m).wf = true :=
  fillPixels_keeps (fun n => n.wf = true) place big x y w h c m
    (fun xx yy _ _ _ _ _ hn => Place.store_wf (place xx yy) big c hn) hm

end Sys2Proof.Machine
end

