-- ==== Sys2Proof/Laws/PerInstr.lean ====
section
/-! SUPPORT. Statements about instructions as syntax, one lemma per constructor of Instr. Family EncodesRow: the word of
an instruction is an instance of its row's match and mask, whatever its operands (30_encoding.md R65). -/

namespace Sys2Proof.Laws

/-- The word of a command is an instance of its mnemonic's match and mask. -/
theorem encodeCommand_row (c : Command) :
    encodeCommand c &&& c.mnemonic.maskWord = c.mnemonic.matchWord := by
  apply word_eq_of_splitWord_eq
  rw [splitWord_and, splitWord_encodeCommand]
  cases c with
  | cfgs fmt stride len =>
    simp only [Command.mnemonic, show splitWord Mnemonic.cfgs.maskWord =
      ⟨0xFF, 0, 0xFFFF, 0, 0xFFFF, 0xFFFF, 0xFFFF, 0⟩ from by decide,
      show splitWord Mnemonic.cfgs.matchWord = ⟨0x01, 0, 0, 0, 0, 0, 0, 0⟩ from by decide]
    simp [Command.fields]
  | cfgg bpp width height offset len =>
    simp only [Command.mnemonic, show splitWord Mnemonic.cfgg.maskWord =
      ⟨0xFF, 0, 0xFFFF, 0xFF00, 0xFF00, 0, 0, 0⟩ from by decide,
      show splitWord Mnemonic.cfgg.matchWord = ⟨0x02, 0, 0, 0, 0, 0, 0, 0⟩ from by decide]
    simp [Command.fields]
  | rdreg reg =>
    simp only [Command.mnemonic, show splitWord Mnemonic.rdreg.maskWord =
      ⟨0xFF, 0, 0xFFFF, 0xFFFF, 0xFFFF, 0xFFFF, 0xFFFF, 0xFFFFFFFF⟩ from by decide,
      show splitWord Mnemonic.rdreg.matchWord = ⟨0x03, 0, 0, 0, 0, 0, 0, 0⟩ from by decide]
    simp [Command.fields]
  | pset x y c =>
    simp only [Command.mnemonic, show splitWord Mnemonic.pset.maskWord =
      ⟨0xFF, 0xFF, 0, 0, 0, 0xFFFF, 0xFFFF, 0xFFFFFFFF⟩ from by decide,
      show splitWord Mnemonic.pset.matchWord = ⟨0x10, 0, 0, 0, 0, 0, 0, 0⟩ from by decide]
    simp [Command.fields]
  | pget x y =>
    simp only [Command.mnemonic, show splitWord Mnemonic.pget.maskWord =
      ⟨0xFF, 0xFF, 0xFFFF, 0, 0, 0xFFFF, 0xFFFF, 0xFFFFFFFF⟩ from by decide,
      show splitWord Mnemonic.pget.matchWord = ⟨0x11, 0, 0, 0, 0, 0, 0, 0⟩ from by decide]
    simp [Command.fields]
  | pfill x y w h c =>
    simp only [Command.mnemonic, show splitWord Mnemonic.pfill.maskWord =
      ⟨0xFF, 0xFF, 0, 0, 0, 0, 0, 0xFFFFFFFF⟩ from by decide,
      show splitWord Mnemonic.pfill.matchWord = ⟨0x12, 0, 0, 0, 0, 0, 0, 0⟩ from by decide]
    simp [Command.fields]
  | gsize =>
    simp only [Command.mnemonic, show splitWord Mnemonic.gsize.maskWord =
      ⟨0xFF, 0xFF, 0xFFFF, 0xFFFF, 0xFFFF, 0xFFFF, 0xFFFF, 0xFFFFFFFF⟩ from by decide,
      show splitWord Mnemonic.gsize.matchWord = ⟨0x20, 0, 0, 0, 0, 0, 0, 0⟩ from by decide]
    simp [Command.fields]
  | gsamp x y =>
    simp only [Command.mnemonic, show splitWord Mnemonic.gsamp.maskWord =
      ⟨0xFF, 0xFF, 0xFFFF, 0, 0, 0xFFFF, 0xFFFF, 0xFFFFFFFF⟩ from by decide,
      show splitWord Mnemonic.gsamp.matchWord = ⟨0x21, 0, 0, 0, 0, 0, 0, 0⟩ from by decide]
    simp [Command.fields]
  | blend bpp a fg bg =>
    simp only [Command.mnemonic, show splitWord Mnemonic.blend.maskWord =
      ⟨0xFF, 0, 0xFF00, 0, 0, 0xFFFF, 0xFFFF, 0xFFFFFFFF⟩ from by decide,
      show splitWord Mnemonic.blend.matchWord = ⟨0x30, 0, 0, 0, 0, 0, 0, 0⟩ from by decide]
    simp [Command.fields]

/-- The word of an instruction is an instance of its row's match and mask. -/
def EncodesRow.Statement (i : Instr) : Prop :=
  encode i &&& i.command.mnemonic.maskWord = i.command.mnemonic.matchWord

theorem EncodesRow.cfgs (fmt : BitVec 8) (stride : BitVec 16) (len : BitVec 32) :
    EncodesRow.Statement (.cfgs fmt stride len) :=
  encodeCommand_row _

theorem EncodesRow.cfgg (bpp width height : BitVec 8) (offset len : BitVec 32) :
    EncodesRow.Statement (.cfgg bpp width height offset len) :=
  encodeCommand_row _

theorem EncodesRow.rdreg (reg : BitVec 8) :
    EncodesRow.Statement (.rdreg reg) :=
  encodeCommand_row _

theorem EncodesRow.psetM1RM (x y : BitVec 16) (c : Colour) :
    EncodesRow.Statement (.psetM1RM x y c) :=
  encodeCommand_row _

theorem EncodesRow.psetM1RL (x y : BitVec 16) (c : Colour) :
    EncodesRow.Statement (.psetM1RL x y c) :=
  encodeCommand_row _

theorem EncodesRow.psetM1C (x y : BitVec 16) (c : Colour) :
    EncodesRow.Statement (.psetM1C x y c) :=
  encodeCommand_row _

theorem EncodesRow.psetRGB565 (x y : BitVec 16) (c : Colour) :
    EncodesRow.Statement (.psetRGB565 x y c) :=
  encodeCommand_row _

theorem EncodesRow.psetG2R (x y : BitVec 16) (c : Colour) :
    EncodesRow.Statement (.psetG2R x y c) :=
  encodeCommand_row _

theorem EncodesRow.psetG4RM (x y : BitVec 16) (c : Colour) :
    EncodesRow.Statement (.psetG4RM x y c) :=
  encodeCommand_row _

theorem EncodesRow.psetG4RL (x y : BitVec 16) (c : Colour) :
    EncodesRow.Statement (.psetG4RL x y c) :=
  encodeCommand_row _

theorem EncodesRow.psetG8 (x y : BitVec 16) (c : Colour) :
    EncodesRow.Statement (.psetG8 x y c) :=
  encodeCommand_row _

theorem EncodesRow.pgetM1RM (x y : BitVec 16) :
    EncodesRow.Statement (.pgetM1RM x y) :=
  encodeCommand_row _

theorem EncodesRow.pgetM1RL (x y : BitVec 16) :
    EncodesRow.Statement (.pgetM1RL x y) :=
  encodeCommand_row _

theorem EncodesRow.pgetM1C (x y : BitVec 16) :
    EncodesRow.Statement (.pgetM1C x y) :=
  encodeCommand_row _

theorem EncodesRow.pgetRGB565 (x y : BitVec 16) :
    EncodesRow.Statement (.pgetRGB565 x y) :=
  encodeCommand_row _

theorem EncodesRow.pgetG2R (x y : BitVec 16) :
    EncodesRow.Statement (.pgetG2R x y) :=
  encodeCommand_row _

theorem EncodesRow.pgetG4RM (x y : BitVec 16) :
    EncodesRow.Statement (.pgetG4RM x y) :=
  encodeCommand_row _

theorem EncodesRow.pgetG4RL (x y : BitVec 16) :
    EncodesRow.Statement (.pgetG4RL x y) :=
  encodeCommand_row _

theorem EncodesRow.pgetG8 (x y : BitVec 16) :
    EncodesRow.Statement (.pgetG8 x y) :=
  encodeCommand_row _

theorem EncodesRow.pfillM1RM (x y w h : BitVec 16) (c : Colour) :
    EncodesRow.Statement (.pfillM1RM x y w h c) :=
  encodeCommand_row _

theorem EncodesRow.pfillM1RL (x y w h : BitVec 16) (c : Colour) :
    EncodesRow.Statement (.pfillM1RL x y w h c) :=
  encodeCommand_row _

theorem EncodesRow.pfillM1C (x y w h : BitVec 16) (c : Colour) :
    EncodesRow.Statement (.pfillM1C x y w h c) :=
  encodeCommand_row _

theorem EncodesRow.pfillRGB565 (x y w h : BitVec 16) (c : Colour) :
    EncodesRow.Statement (.pfillRGB565 x y w h c) :=
  encodeCommand_row _

theorem EncodesRow.pfillG2R (x y w h : BitVec 16) (c : Colour) :
    EncodesRow.Statement (.pfillG2R x y w h c) :=
  encodeCommand_row _

theorem EncodesRow.pfillG4RM (x y w h : BitVec 16) (c : Colour) :
    EncodesRow.Statement (.pfillG4RM x y w h c) :=
  encodeCommand_row _

theorem EncodesRow.pfillG4RL (x y w h : BitVec 16) (c : Colour) :
    EncodesRow.Statement (.pfillG4RL x y w h c) :=
  encodeCommand_row _

theorem EncodesRow.pfillG8 (x y w h : BitVec 16) (c : Colour) :
    EncodesRow.Statement (.pfillG8 x y w h c) :=
  encodeCommand_row _

theorem EncodesRow.gsize1 :
    EncodesRow.Statement .gsize1 :=
  encodeCommand_row _

theorem EncodesRow.gsize2 :
    EncodesRow.Statement .gsize2 :=
  encodeCommand_row _

theorem EncodesRow.gsize4 :
    EncodesRow.Statement .gsize4 :=
  encodeCommand_row _

theorem EncodesRow.gsize8 :
    EncodesRow.Statement .gsize8 :=
  encodeCommand_row _

theorem EncodesRow.gsamp1 (x y : BitVec 16) :
    EncodesRow.Statement (.gsamp1 x y) :=
  encodeCommand_row _

theorem EncodesRow.gsamp2 (x y : BitVec 16) :
    EncodesRow.Statement (.gsamp2 x y) :=
  encodeCommand_row _

theorem EncodesRow.gsamp4 (x y : BitVec 16) :
    EncodesRow.Statement (.gsamp4 x y) :=
  encodeCommand_row _

theorem EncodesRow.gsamp8 (x y : BitVec 16) :
    EncodesRow.Statement (.gsamp8 x y) :=
  encodeCommand_row _

theorem EncodesRow.blendM1RM (bpp a : BitVec 8) (fg bg : Colour) :
    EncodesRow.Statement (.blendM1RM bpp a fg bg) :=
  encodeCommand_row _

theorem EncodesRow.blendM1RL (bpp a : BitVec 8) (fg bg : Colour) :
    EncodesRow.Statement (.blendM1RL bpp a fg bg) :=
  encodeCommand_row _

theorem EncodesRow.blendM1C (bpp a : BitVec 8) (fg bg : Colour) :
    EncodesRow.Statement (.blendM1C bpp a fg bg) :=
  encodeCommand_row _

theorem EncodesRow.blendRGB565 (bpp a : BitVec 8) (fg bg : Colour) :
    EncodesRow.Statement (.blendRGB565 bpp a fg bg) :=
  encodeCommand_row _

theorem EncodesRow.blendG2R (bpp a : BitVec 8) (fg bg : Colour) :
    EncodesRow.Statement (.blendG2R bpp a fg bg) :=
  encodeCommand_row _

theorem EncodesRow.blendG4RM (bpp a : BitVec 8) (fg bg : Colour) :
    EncodesRow.Statement (.blendG4RM bpp a fg bg) :=
  encodeCommand_row _

theorem EncodesRow.blendG4RL (bpp a : BitVec 8) (fg bg : Colour) :
    EncodesRow.Statement (.blendG4RL bpp a fg bg) :=
  encodeCommand_row _

theorem EncodesRow.blendG8 (bpp a : BitVec 8) (fg bg : Colour) :
    EncodesRow.Statement (.blendG8 bpp a fg bg) :=
  encodeCommand_row _

end Sys2Proof.Laws
end

