-- ==== Sys2Proof/Laws/Response.lean ====
section
/-! SUPPORT. The parts of a response word (30_encoding.md R67), and the fault causes by their codes. -/

namespace Sys2Proof.Machine

/-- The status of a response is what it was made with. -/
@[simp] theorem responseStatus_responseWord (status : BitVec 4) (value : BitVec 32) :
    responseStatus (responseWord status value) = status := by
  apply BitVec.eq_of_getLsbD_eq
  intro i hi
  simp only [responseWord, BitVec.getLsbD_append, BitVec.getLsbD_extractLsb']
  grind

/-- The value of a response is what it was made with. -/
@[simp] theorem responseValue_responseWord (status : BitVec 4) (value : BitVec 32) :
    responseValue (responseWord status value) = value := by
  apply BitVec.eq_of_getLsbD_eq
  intro i hi
  simp only [responseWord, BitVec.getLsbD_append, BitVec.getLsbD_extractLsb']
  grind

/-- The other bits of a response are zero. -/
@[simp] theorem responseTop_responseWord (status : BitVec 4) (value : BitVec 32) :
    (responseWord status value).extractLsb' 36 28 = 0 := by
  apply BitVec.eq_of_getLsbD_eq
  intro i hi
  simp only [responseWord, BitVec.getLsbD_append, BitVec.getLsbD_extractLsb']
  grind

/-- Two responses added to the same list are equal when the lists are. -/
theorem response_eq_of_append_eq {l : List Response} {r r' : Response} (h : l ++ [r] = l ++ [r']) : r = r' :=
  List.head_eq_of_cons_eq (List.append_cancel_left h)

/-- No fault has status 0 (60_exceptions.md R180). -/
theorem Cause.code_ne_zero (c : Cause) : c.code ≠ 0 := by
  cases c <;> decide

/-- Different faults have different codes (60_exceptions.md R180). -/
theorem Cause.code_injective {c d : Cause} (h : c.code = d.code) : c = d := by
  cases c <;> cases d <;> first | rfl | exact absurd h (by decide)

end Sys2Proof.Machine
end

