-- ==== Sys2Proof/Laws/Step.lean ====
section
/-! SUPPORT. What one step can do: the port's answer to each move. -/

namespace Sys2Proof.Machine

/-- Everything a step can do: idle, or the port's answer to the oldest move. -/
theorem step_cases (s : State) :
    (s.inbox = [] ∧ step s = .next s) ∨
    (∃ move rest, s.inbox = move :: rest ∧ step s = takeMove move (s.setInbox rest)) := by
  unfold step
  cases h : s.inbox with
  | nil => exact .inl ⟨rfl, rfl⟩
  | cons move rest => exact .inr ⟨move, rest, rfl, rfl⟩

/-- A step that takes a move. -/
theorem step_of_move {s : State} {move : HostMove} {rest : List HostMove} (h : s.inbox = move :: rest) :
    step s = takeMove move (s.setInbox rest) := by
  unfold step
  rw [h]

/-- Everything a command word can do: run the instruction it decodes to, be rejected as illegal, meet the gate of a
glyph command whose depth register selects no variant, or stop the model there. -/
theorem runWord_cases (w : Word) (s : State) :
    (∃ i, decode s.pfFormat s.gBpp w = .ok i ∧ runWord w s = exec i s) ∨
    (∃ r, decode s.pfFormat s.gBpp w = .error r ∧ r ≠ .noVariant ∧ runWord w s = .next (s.raise .illegalCmd)) ∨
    (decode s.pfFormat s.gBpp w = .error .noVariant ∧ s.gValid = false ∧
      runWord w s = .next (s.raise .notConfigured)) ∨
    (decode s.pfFormat s.gBpp w = .error .noVariant ∧ s.gValid = true ∧ runWord w s = .fault .glyphDepth) := by
  unfold runWord
  cases hd : decode s.pfFormat s.gBpp w with
  | ok i => exact .inl ⟨i, rfl, rfl⟩
  | error r =>
    cases r with
    | noVariant =>
      cases hv : s.gValid
      · exact .inr (.inr (.inl ⟨rfl, rfl, by simp [rejectWord, hv]⟩))
      · exact .inr (.inr (.inr ⟨rfl, rfl, by simp [rejectWord, hv]⟩))
    | badOpcode => exact .inr (.inl ⟨_, rfl, by decide, rfl⟩)
    | mustBeZero => exact .inr (.inl ⟨_, rfl, by decide, rfl⟩)
    | badRegister => exact .inr (.inl ⟨_, rfl, by decide, rfl⟩)

/-- A word decodes to an instruction when it decodes to a command and the selectors pick a variant. -/
theorem decode_eq_ok_iff (fmt : BitVec 3) (bpp : BitVec 4) (w : Word) (i : Instr) :
    decode fmt bpp w = .ok i ↔ ∃ c, decodeCommand w = .ok c ∧ selectVariant fmt bpp c = .ok i := by
  unfold decode
  cases h : decodeCommand w <;> simp

/-- Everything a command word can do, mnemonic by mnemonic: an illegal word faults; a legal one does what the shared
operation of its mnemonic does, at the variant the selectors pick; a GSIZE or GSAMP with no variant meets the gate or
stops the model. -/
theorem runWord_commands (w : Word) (s : State) :
    (∃ r, decodeCommand w = .error r ∧ runWord w s = .next (s.raise .illegalCmd)) ∨
    (∃ fmt stride len, decodeCommand w = .ok (.cfgs fmt stride len) ∧
      runWord w s = .next (configureSurface fmt stride len s)) ∨
    (∃ bpp width height offset len, decodeCommand w = .ok (.cfgg bpp width height offset len) ∧
      runWord w s = .next (configureGlyph bpp width height offset len s)) ∨
    (∃ reg, decodeCommand w = .ok (.rdreg reg) ∧ runWord w s = .next (readRegister reg s)) ∨
    (∃ x y c, decodeCommand w = .ok (.pset x y c) ∧ runWord w s =
      .next (setPixel (placeOf (PixFormat.ofCode s.pfFormat) s.pfStride.toNat x.toNat y.toNat) c s)) ∨
    (∃ x y, decodeCommand w = .ok (.pget x y) ∧ runWord w s =
      .next (getPixel (placeOf (PixFormat.ofCode s.pfFormat) s.pfStride.toNat x.toNat y.toNat) s)) ∨
    (∃ x y width height c, decodeCommand w = .ok (.pfill x y width height c) ∧ runWord w s =
      .next (fillRectangle (placeOf (PixFormat.ofCode s.pfFormat) s.pfStride.toNat) x y width height c s)) ∨
    (decodeCommand w = .ok .gsize ∧
      ∃ d, Depth.ofBits s.gBpp.toNat = some d ∧ runWord w s = .next (glyphSize d s)) ∨
    (∃ x y, decodeCommand w = .ok (.gsamp x y) ∧
      ∃ d, Depth.ofBits s.gBpp.toNat = some d ∧ runWord w s = .next (sampleGlyph d x y s)) ∨
    ((decodeCommand w = .ok .gsize ∨ ∃ x y, decodeCommand w = .ok (.gsamp x y)) ∧
      Depth.ofBits s.gBpp.toNat = none ∧ s.gValid = false ∧ runWord w s = .next (s.raise .notConfigured)) ∨
    ((decodeCommand w = .ok .gsize ∨ ∃ x y, decodeCommand w = .ok (.gsamp x y)) ∧
      Depth.ofBits s.gBpp.toNat = none ∧ s.gValid = true ∧ runWord w s = .fault .glyphDepth) ∨
    (∃ bpp a fg bg, decodeCommand w = .ok (.blend bpp a fg bg) ∧
      runWord w s = .next (blendColours (blendOf (PixFormat.ofCode s.pfFormat)) bpp a fg bg s)) := by
  unfold runWord decode
  cases hd : decodeCommand w with
  | error r =>
    have hr : r ≠ .noVariant := by
      rintro rfl
      exact decodeFields_ne_noVariant _ hd
    left
    refine ⟨r, rfl, ?_⟩
    cases r <;> first | rfl | exact absurd rfl hr
  | ok c =>
    right
    cases c with
    | cfgs fmt stride len => exact .inl ⟨_, _, _, rfl, rfl⟩
    | cfgg bpp width height offset len => exact .inr (.inl ⟨_, _, _, _, _, rfl, rfl⟩)
    | rdreg reg => exact .inr (.inr (.inl ⟨_, rfl, rfl⟩))
    | pset x y c => exact .inr (.inr (.inr (.inl ⟨_, _, _, rfl, by simp [selectVariant]⟩)))
    | pget x y => exact .inr (.inr (.inr (.inr (.inl ⟨_, _, rfl, by simp [selectVariant]⟩))))
    | pfill x y width height c =>
      exact .inr (.inr (.inr (.inr (.inr (.inl ⟨_, _, _, _, _, rfl, by simp [selectVariant]⟩)))))
    | blend bpp a fg bg =>
      exact .inr (.inr (.inr (.inr (.inr (.inr (.inr (.inr (.inr (.inr
        ⟨_, _, _, _, rfl, by simp [selectVariant]⟩)))))))))
    | gsize =>
      cases hb : Depth.ofBits s.gBpp.toNat with
      | some d => exact .inr (.inr (.inr (.inr (.inr (.inr (.inl ⟨rfl, d, rfl, by simp [selectVariant, hb]⟩))))))
      | none =>
        cases hg : s.gValid
        · exact .inr (.inr (.inr (.inr (.inr (.inr (.inr (.inr (.inl
            ⟨.inl rfl, rfl, rfl, by simp [selectVariant, hb, rejectWord, hg]⟩))))))))
        · exact .inr (.inr (.inr (.inr (.inr (.inr (.inr (.inr (.inr (.inl
            ⟨.inl rfl, rfl, rfl, by simp [selectVariant, hb, rejectWord, hg]⟩)))))))))
    | gsamp x y =>
      cases hb : Depth.ofBits s.gBpp.toNat with
      | some d =>
        exact .inr (.inr (.inr (.inr (.inr (.inr (.inr (.inl ⟨_, _, rfl, d, rfl, by simp [selectVariant, hb]⟩)))))))
      | none =>
        cases hg : s.gValid
        · exact .inr (.inr (.inr (.inr (.inr (.inr (.inr (.inr (.inl
            ⟨.inr ⟨_, _, rfl⟩, rfl, rfl, by simp [selectVariant, hb, rejectWord, hg]⟩))))))))
        · exact .inr (.inr (.inr (.inr (.inr (.inr (.inr (.inr (.inr (.inl
            ⟨.inr ⟨_, _, rfl⟩, rfl, rfl, by simp [selectVariant, hb, rejectWord, hg]⟩)))))))))

end Sys2Proof.Machine
end

