-- ==== Sys2Proof/Tests/Slice0.lean ====
section
/-! SUPPORT. The author's own tests: ill-formed terms, decoding of words written out from 30_encoding.md, single steps
whose expected results are the worked examples of 95_test_vectors.md (named by their ids there), and for each statement
with hypotheses a state and operands that meet them. -/

namespace Sys2Proof.Tests

open Sys2Proof Sys2Proof.Machine

/-! ## Small states and what a step leaves -/

/-- The reset state with a configured surface. -/
def surface (format : BitVec 3) (stride : BitVec 17) (len : BitVec 32) (bytes : Memory) : State :=
  { State.reset with pfFormat := format, pfStride := stride, pfLen := len, pfValid := true, pfWritten := true, pix := bytes }

/-- The reset state with a configured glyph. -/
def glyph (bpp : BitVec 4) (width height : BitVec 8) (offset len : BitVec 32) (bytes : Memory) : State :=
  { State.reset with
    gBpp := bpp, gWidth := width, gHeight := height, gOffset := offset, gLen := len, gValid := true, gWritten := true
    gly := bytes }

/-- The state with one command word pending. -/
def pending (w : Word) (s : State) : State :=
  { s with inbox := [.command w] }

/-- What an instruction responds. -/
def answer (i : Instr) (s : State) : Option Response :=
  match exec i s with
  | .next t => t.outbox.getLast?
  | _ => none

/-- What an instruction leaves in pixel memory. -/
def pixAfter (i : Instr) (s : State) : Option Memory :=
  match exec i s with
  | .next t => some t.pix
  | _ => none

/-- What one step responds to a command word. -/
def reply (w : Word) (s : State) : Option Response :=
  match step (pending w s) with
  | .next t => t.outbox.getLast?
  | _ => none

/-! ## WellFormed: the one check refuses -/

theorem test_wellFormed_refuses_register_10 : WellFormed (.rdreg 10) = false := by decide
theorem test_wellFormed_accepts_register_9 : WellFormed (.rdreg 9) = true := by decide

/-! ## Decoding: words written out field by field, `ext h w y x c sel op` (30_encoding.md R60, R61) -/

/-- V-EN-2, V-CF-1, V-EN-3, V-EN-8. -/
theorem test_decode_configuration :
    decode 0 1 0x00000008000000000000000800000001 = .ok (.cfgs 0 8 8) ∧
    decode 5 2 0x0000001E000000000000000A00000401 = .ok (.cfgs 4 10 30) ∧
    decode 0 1 0x00020000000123450002000300000802 = .ok (.cfgg 8 3 2 0x12345 0x20000) ∧
    decode 0 1 0x00000000000000000000000000000103 = .ok (.rdreg 1) := by decide

/-- PSET 5, 5, 0xF800 (V-EN-1) and PSET 2, 1, 0xA under each selector. -/
theorem test_decode_pset :
    decode 0 1 0x000000000000000000050005F8000010 = .ok (.psetM1RM 5 5 0xF800) ∧
    decode 1 1 0x000000000000000000050005F8000010 = .ok (.psetM1RL 5 5 0xF800) ∧
    decode 2 1 0x00000000000000000001000200000010 = .ok (.psetM1C 2 1 0) ∧
    decode 3 1 0x000000000000000000050005F8000010 = .ok (.psetRGB565 5 5 0xF800) ∧
    decode 4 1 0x000000000000000000010002000A0010 = .ok (.psetG2R 2 1 0xA) ∧
    decode 5 1 0x000000000000000000010002000A0010 = .ok (.psetG4RM 2 1 0xA) ∧
    decode 6 1 0x000000000000000000010002000A0010 = .ok (.psetG4RL 2 1 0xA) ∧
    decode 7 1 0x00000000000000000003000300AA0010 = .ok (.psetG8 3 3 0xAA) := by decide

/-- PGET 4, 3 and PGET 10, 2 (program P5) under each selector. -/
theorem test_decode_pget :
    decode 0 1 0x00000000000000000003000400000011 = .ok (.pgetM1RM 4 3) ∧
    decode 1 1 0x00000000000000000003000400000011 = .ok (.pgetM1RL 4 3) ∧
    decode 2 1 0x00000000000000000003000400000011 = .ok (.pgetM1C 4 3) ∧
    decode 3 1 0x00000000000000000005000400000011 = .ok (.pgetRGB565 4 5) ∧
    decode 4 1 0x00000000000000000002000A00000011 = .ok (.pgetG2R 10 2) ∧
    decode 5 1 0x00000000000000000002000A00000011 = .ok (.pgetG4RM 10 2) ∧
    decode 6 1 0x00000000000000000002000A00000011 = .ok (.pgetG4RL 10 2) ∧
    decode 7 1 0x00000000000000000002000A00000011 = .ok (.pgetG8 10 2) := by decide

/-- PFILL 2, 3, 3, 1, 5 (V-FL-15), PFILL 1, 1, 9, 2, 1 (P5), PFILL 0, 0, 8, 8, 1 (V-EN-4) under the selectors. -/
theorem test_decode_pfill :
    decode 0 1 0x00000000000800080000000000010012 = .ok (.pfillM1RM 0 0 8 8 1) ∧
    decode 1 1 0x00000000000800080000000000010012 = .ok (.pfillM1RL 0 0 8 8 1) ∧
    decode 2 1 0x00000000000100030003000200050012 = .ok (.pfillM1C 2 3 3 1 5) ∧
    decode 3 1 0x00000000000100030003000200050012 = .ok (.pfillRGB565 2 3 3 1 5) ∧
    decode 4 1 0x00000000000200090001000100010012 = .ok (.pfillG2R 1 1 9 2 1) ∧
    decode 5 1 0x00000000000100030003000200050012 = .ok (.pfillG4RM 2 3 3 1 5) ∧
    decode 6 1 0x00000000000100030003000200050012 = .ok (.pfillG4RL 2 3 3 1 5) ∧
    decode 7 1 0x00000000000100030003000200050012 = .ok (.pfillG8 2 3 3 1 5) := by decide

/-- GSIZE (V-EN-6) and GSAMP 2, 1 (V-EN-7) at each depth. -/
theorem test_decode_glyph :
    decode 0 1 0x00000000000000000000000000000020 = .ok .gsize1 ∧
    decode 0 2 0x00000000000000000000000000000020 = .ok .gsize2 ∧
    decode 0 4 0x00000000000000000000000000000020 = .ok .gsize4 ∧
    decode 0 8 0x00000000000000000000000000000020 = .ok .gsize8 ∧
    decode 0 1 0x00000000000000000001000200000021 = .ok (.gsamp1 2 1) ∧
    decode 0 2 0x00000000000000000001000200000021 = .ok (.gsamp2 2 1) ∧
    decode 0 4 0x00000000000000000001000200000021 = .ok (.gsamp4 2 1) ∧
    decode 0 8 0x00000000000000000001000200000021 = .ok (.gsamp8 2 1) := by decide

/-- BLEND 8, 128, 0xF800, 0x1F (V-EN-5) and BLEND 2, 1, 40, 20 (V-BL-9) under each selector. -/
theorem test_decode_blend :
    decode 0 1 0x0000000000000000001FF80000800830 = .ok (.blendM1RM 8 128 0xF800 0x1F) ∧
    decode 1 1 0x0000000000000000001FF80000800830 = .ok (.blendM1RL 8 128 0xF800 0x1F) ∧
    decode 2 1 0x00000000000000000014002800010230 = .ok (.blendM1C 2 1 40 20) ∧
    decode 3 1 0x0000000000000000001FF80000800830 = .ok (.blendRGB565 8 128 0xF800 0x1F) ∧
    decode 4 1 0x00000000000000000014002800010230 = .ok (.blendG2R 2 1 40 20) ∧
    decode 5 1 0x00000000000000000014002800010230 = .ok (.blendG4RM 2 1 40 20) ∧
    decode 6 1 0x00000000000000000014002800010230 = .ok (.blendG4RL 2 1 40 20) ∧
    decode 7 1 0x00000000000000000014002800010230 = .ok (.blendG8 2 1 40 20) := by decide

/-- V-EN-9 to V-EN-16, each with its case of 30_encoding.md R66. -/
theorem test_decode_illegal :
    decodeCommand 0x00000000000000000000000000000000 = .error .badOpcode ∧
    decodeCommand 0x00000000000000000000000000000013 = .error .badOpcode ∧
    decodeCommand 0x00000000000000000000000000010110 = .error .mustBeZero ∧
    decodeCommand 0x00000004000000000001010000000102 = .error .mustBeZero ∧
    decodeCommand 0x00000000000000000000000000000A03 = .error .badRegister ∧
    decodeCommand 0x00000001000000000000000000000020 = .error .mustBeZero ∧
    decodeCommand 0x00000000000000000000000F01000430 = .error .mustBeZero ∧
    decodeCommand 0x00000010000000000001000400000901 = .error .mustBeZero := by decide

/-- V-EN-11 on a valid surface, V-EN-13, and V-EN-16, which keeps PF_VALID. -/
theorem test_illegal_words_respond_1 :
    reply 0x00000000000000000000000000010110 (surface 0 8 8 []) = some 0x0000000100000000 ∧
    reply 0x00000000000000000000000000000A03 State.reset = some 0x0000000100000000 ∧
    reply 0x00000010000000000001000400000901 (surface 7 4 16 []) = some 0x0000000100000000 := by decide

/-- V-GS-11, V-PX-15: before any configuration. -/
theorem test_unconfigured_words_respond_4 :
    reply 0x00000000000000000000000000000020 State.reset = some 0x0000000400000000 ∧
    reply 0x00000000000000000000000000010010 State.reset = some 0x0000000400000000 := by decide

/-! ## Configuration (V-CF) -/

theorem test_cfgs_rounds_10_to_12 : exec (.cfgs 4 10 30) State.reset =
    .next { surface 4 12 30 [] with outbox := [0] } := rfl
theorem test_cfgs_stride_65536 : exec (.cfgs 0 65535 4) State.reset =
    .next { surface 0 65536 4 [] with outbox := [0] } := rfl
theorem test_cfgg_loads : exec (.cfgg 4 5 3 16 64) State.reset =
    .next { glyph 4 5 3 16 64 [] with outbox := [0] } := rfl
theorem test_cfgg_bad_depth : exec (.cfgg 3 3 2 0 4) (glyph 4 5 3 16 64 []) =
    .next { glyph 4 5 3 16 64 [] with gValid := false, faultReg := 8, outbox := [0x0000000300000000] } := rfl
theorem test_rdreg_stride : answer (.rdreg 1) (surface 4 12 30 []) = some 12 := by decide
theorem test_rdreg_status_and_fault :
    answer (.rdreg 8) { surface 7 4 16 [] with gValid := true } = some 3 ∧
    answer (.rdreg 9) { surface 7 4 16 [] with faultReg := 0x34 } = some 0x34 := by decide

/-! ## PSET and PGET (V-PX) -/

theorem test_pset_m1rm : pixAfter (.psetM1RM 3 3 1) (surface 0 8 8 []) = some [(3, 0x08)] := by decide
theorem test_pset_m1rm_uses_bit_0 : pixAfter (.psetM1RM 0 0 2) (surface 0 8 1 [(0, 0xFF)]) = some [(0, 0xFE)] := by
  decide
theorem test_pset_m1rl : pixAfter (.psetM1RL 3 3 1) (surface 1 8 8 []) = some [(3, 0x10)] := by decide
theorem test_pset_m1c : pixAfter (.psetM1C 3 10 1) (surface 2 8 16 []) = some [(11, 0x04)] := by decide
theorem test_pset_rgb565 : pixAfter (.psetRGB565 5 5 0xF800) (surface 3 8 128 []) = some [(91, 0xF8)] ∧
    pixAfter (.psetRGB565 5 5 0xF800) { surface 3 8 128 [] with bigEndian := true } = some [(90, 0xF8)] := by decide
theorem test_pset_rgb565_second_byte_outside :
    answer (.psetRGB565 1 0 1) (surface 3 4 3 []) = some 0x0000000500000000 ∧
    pixAfter (.psetRGB565 1 0 1) (surface 3 4 3 []) = some [] := by decide
theorem test_pset_g2r : pixAfter (.psetG2R 6 1 2) (surface 4 12 12 [(4, 0xFF)]) = some [(4, 0xEF)] := by decide
theorem test_pset_g4rm : pixAfter (.psetG4RM 3 1 0xB) (surface 5 8 16 [(5, 0xA0)]) = some [(5, 0xAB)] := by decide
theorem test_pset_g4rl : pixAfter (.psetG4RL 3 1 0xB) (surface 6 8 16 [(5, 0x0A)]) = some [(5, 0xBA)] := by decide
theorem test_pset_g8 : pixAfter (.psetG8 7 2 0x1234) (surface 7 8 24 []) = some [(23, 0x34)] := by decide
theorem test_pset_g8_outside : answer (.psetG8 0 4 1) (surface 7 4 16 []) = some 0x0000000500000000 := by decide

theorem test_pget_m1rm : answer (.pgetM1RM 3 3) (surface 0 8 8 [(3, 0x08)]) = some 1 ∧
    answer (.pgetM1RM 4 3) (surface 0 8 8 [(3, 0x08)]) = some 0 := by decide
theorem test_pget_m1rm_outside : answer (.pgetM1RM 0 8) (surface 0 8 8 []) = some 0x0000000500000000 := by decide
theorem test_pget_m1rl : answer (.pgetM1RL 4 3) (surface 1 8 8 [(3, 0x08)]) = some 1 := by decide
theorem test_pget_m1c : answer (.pgetM1C 3 10) (surface 2 8 16 [(11, 0x04)]) = some 1 ∧
    answer (.pgetM1C 3 11) (surface 2 8 16 [(11, 0x04)]) = some 0 := by decide
theorem test_pget_rgb565 : answer (.pgetRGB565 5 5) (surface 3 8 128 [(91, 0xF8)]) = some 0xF800 ∧
    answer (.pgetRGB565 4 5) (surface 3 8 128 [(91, 0xF8)]) = some 0 := by decide
theorem test_pget_g2r : answer (.pgetG2R 6 1) (surface 4 12 12 [(4, 0xEF)]) = some 2 ∧
    answer (.pgetG2R 7 1) (surface 4 12 12 [(4, 0xEF)]) = some 3 := by decide
theorem test_pget_g4rm : answer (.pgetG4RM 2 1) (surface 5 8 16 [(5, 0xAB)]) = some 0xA ∧
    answer (.pgetG4RM 3 1) (surface 5 8 16 [(5, 0xAB)]) = some 0xB := by decide
theorem test_pget_g4rl : answer (.pgetG4RL 2 1) (surface 6 8 16 [(5, 0xBA)]) = some 0xA ∧
    answer (.pgetG4RL 3 1) (surface 6 8 16 [(5, 0xBA)]) = some 0xB := by decide
theorem test_pget_g8_aliases : answer (.pgetG8 1 1) (surface 7 4 8 [(5, 0x77)]) = some 0x77 := by decide

/-! ## PFILL (V-FL) -/

theorem test_pfill_m1rm : pixAfter (.pfillM1RM 3 0 10 1 1) (surface 0 16 2 []) = some [(0, 0xF8), (1, 0x1F)] := by
  decide
theorem test_pfill_m1rm_no_wrap :
    answer (.pfillM1RM 65535 65535 65535 65535 1) (surface 0 65536 4 []) = some 0x0000000500000000 := by decide
theorem test_pfill_m1rl : pixAfter (.pfillM1RL 2 0 3 1 0) (surface 1 16 2 [(0, 0xFF), (1, 0xFF)]) =
    some [(0, 0xC7), (1, 0xFF)] := by decide
theorem test_pfill_m1c : pixAfter (.pfillM1C 2 5 3 6 1) (surface 2 8 16 []) =
    some [(2, 0xE0), (3, 0xE0), (4, 0xE0), (10, 0x07), (11, 0x07), (12, 0x07)] := by
  decide +kernel
theorem test_pfill_rgb565 : pixAfter (.pfillRGB565 1 1 2 1 0x07E0) (surface 3 4 32 []) =
    some [(10, 0xE0), (11, 0x07), (12, 0xE0), (13, 0x07)] := by decide
theorem test_pfill_g2r : pixAfter (.pfillG2R 1 0 9 1 2) (surface 4 12 3 []) =
    some [(0, 0xA8), (1, 0xAA), (2, 0x0A)] := by decide
theorem test_pfill_g4rm : pixAfter (.pfillG4RM 1 0 4 1 7) (surface 5 8 4 []) =
    some [(0, 0x07), (1, 0x77), (2, 0x70)] := by decide
theorem test_pfill_g4rl : pixAfter (.pfillG4RL 1 0 4 1 7) (surface 6 8 4 []) =
    some [(0, 0x70), (1, 0x77), (2, 0x07)] := by decide
theorem test_pfill_g8 : pixAfter (.pfillG8 2 1 3 2 0x1AB) (surface 7 8 24 []) =
    some [(10, 0xAB), (11, 0xAB), (12, 0xAB), (18, 0xAB), (19, 0xAB), (20, 0xAB)] := by decide
theorem test_pfill_g8_all_or_nothing :
    answer (.pfillG8 2 3 3 1 5) (surface 7 4 16 [(15, 0xAA)]) = some 0x0000000500000000 ∧
    pixAfter (.pfillG8 2 3 3 1 5) (surface 7 4 16 [(15, 0xAA)]) = some [(15, 0xAA)] := by decide

/-! ## GSIZE and GSAMP (V-GS) -/

theorem test_gsize_1 : answer .gsize1 (glyph 1 10 3 0 0 []) = some 6 ∧ answer .gsize1 (glyph 1 9 1 0 0 []) = some 2 := by
  decide
theorem test_gsize_2 : answer .gsize2 (glyph 2 5 4 0 0 []) = some 8 := by decide
theorem test_gsize_4 : answer .gsize4 (glyph 4 5 3 0 0 []) = some 9 ∧ answer .gsize4 (glyph 4 0 9 0 0 []) = some 0 := by
  decide
theorem test_gsize_8 : answer .gsize8 (glyph 8 255 255 0 0 []) = some 65025 := by decide
theorem test_gsamp_1_shifts_by_remainder : answer (.gsamp1 8 0) (glyph 1 16 1 0 2 [(1, 0x01)]) = some 1 := by decide
theorem test_gsamp_1_second_row :
    answer (.gsamp1 8 1) (glyph 1 10 2 0 4 [(0, 0x05), (1, 0x02), (2, 0xFF), (3, 0x01)]) = some 1 ∧
    answer (.gsamp1 9 1) (glyph 1 10 2 0 4 [(0, 0x05), (1, 0x02), (2, 0xFF), (3, 0x01)]) = some 0 := by decide
theorem test_gsamp_2 : answer (.gsamp2 5 0) (glyph 2 8 1 0 2 [(1, 0x0C)]) = some 3 ∧
    answer (.gsamp2 2 0) (glyph 2 5 1 0 2 [(0, 0xE4), (1, 0x02)]) = some 2 := by decide
theorem test_gsamp_4 : answer (.gsamp4 2 0) (glyph 4 3 2 2 4 [(3, 0x5A)]) = some 0xA := by decide
theorem test_gsamp_4_faults : answer (.gsamp4 3 0) (glyph 4 3 2 2 4 []) = some 0x0000000700000000 ∧
    answer (.gsamp4 0 1) (glyph 4 3 2 2 4 []) = some 0x0000000600000000 := by decide
theorem test_gsamp_8 : answer (.gsamp8 1 1)
    (glyph 8 3 2 4 10 [(5, 0x80), (6, 0xFF), (7, 0x10), (8, 0x20), (9, 0x30)]) = some 0x20 := by decide

/-! ## BLEND (V-BL) -/

theorem test_blend_m1rm : answer (.blendM1RM 4 14 1 0) (surface 0 8 0 []) = some 0 := by decide
theorem test_blend_m1rl : answer (.blendM1RL 4 15 1 0) (surface 1 8 0 []) = some 1 := by decide
theorem test_blend_m1c : answer (.blendM1C 1 0 1 0) (surface 2 8 0 []) = some 0 := by decide
theorem test_blend_rgb565 : answer (.blendRGB565 8 128 0xF800 0x001F) (surface 3 8 0 []) = some 0x780F ∧
    answer (.blendRGB565 2 1 0x07E0 0xF81F) (surface 3 8 0 []) = some 0xA2B4 := by decide
theorem test_blend_g2r : answer (.blendG2R 8 200 3 0) (surface 4 8 0 []) = some 2 := by decide
theorem test_blend_g4rm_clamps : answer (.blendG4RM 2 1 40 20) (surface 5 8 0 []) = some 15 ∧
    answer (.blendG4RM 2 3 40 20) (surface 5 8 0 []) = some 40 := by decide
theorem test_blend_g4rl : answer (.blendG4RL 4 7 0 15) (surface 6 8 0 []) = some 8 := by decide
theorem test_blend_g8 : answer (.blendG8 8 127 0 255) (surface 7 8 0 []) = some 128 ∧
    answer (.blendG8 4 5 200 50) (surface 7 8 0 []) = some 100 := by decide
theorem test_blend_g8_faults : answer (.blendG8 3 0 1 0) State.reset = some 0x0000000300000000 ∧
    answer (.blendG8 4 16 1 0) (surface 7 8 0 []) = some 0x0000000800000000 := by decide

/-! ## Witnesses: for each statement with hypotheses, and each of its clauses, a state and operands that meet them -/

theorem witness_DecodeOfEncode :
    (WellFormed (.rdreg 9) = true ∧ (Instr.rdreg 9).selectedBy 7 8 = true) ∧
    (WellFormed (.psetG8 0xFFFF 0 0xFFFF) = true ∧ (Instr.psetG8 0xFFFF 0 0xFFFF).selectedBy 7 8 = true) ∧
    (WellFormed (.gsamp8 0xFFFF 0) = true ∧ (Instr.gsamp8 0xFFFF 0).selectedBy 0 8 = true) := by decide

theorem witness_LegalWordIsItsEncoding : decode 7 8 0x00000000000000000000000000000903 = .ok (.rdreg 9) := by decide

theorem witness_MatchAndMaskDecide :
    (0x00000000000000000000000000000903#128 &&& Mnemonic.rdreg.maskWord = Mnemonic.rdreg.matchWord) ∧
    (0x00000000000000000000000000000A03#128 &&& Mnemonic.rdreg.maskWord = Mnemonic.rdreg.matchWord) ∧
    (decodeCommand 0x00000000000000000000000000000903 = .ok (.rdreg 9)) := by decide

/-- An illegal word of each of the three cases, and the legal neighbour of the third. -/
theorem witness_IllegalWordsOnlyFault :
    (pending 0 State.reset).inbox = .command 0 :: [] ∧
    IllegalWord 0x00000000000000000000000000000000 ∧ IllegalWord 0x00000000000000000000000000010110 ∧
    IllegalWord 0x00000000000000000000000000000A03 ∧ ¬ IllegalWord 0x00000000000000000000000000000903 := by
  refine ⟨rfl, .inl ?_, .inr (.inl ⟨.pset, by decide⟩), .inr (.inr (by decide)), ?_⟩
  · intro m
    cases m <;> decide
  · rintro (h | ⟨m, h⟩ | h)
    · exact h .rdreg (by decide)
    · revert h
      cases m <;> decide
    · revert h
      decide

theorem witness_StepRunsDecodedInstruction :
    (pending 0x00000000000000000003000300AA0010 (surface 7 4 16 [])).inbox =
      .command 0x00000000000000000003000300AA0010 :: [] ∧
    decode (surface 7 4 16 []).pfFormat (surface 7 4 16 []).gBpp 0x00000000000000000003000300AA0010 =
      .ok (.psetG8 3 3 0xAA) := by decide

theorem witness_MovesBetweenCommands :
    State.reset.inbox = [] ∧
    { State.reset with inbox := [.writePix 0xFFFFFFFF 1] }.inbox = .writePix 0xFFFFFFFF 1 :: [] ∧
    { State.reset with inbox := [.writeGly 0 0] }.inbox = .writeGly 0 0 :: [] := by decide

theorem witness_ResetEvent : { surface 7 4 16 [] with inbox := [.reset] }.inbox = .reset :: [] := by decide

/-- A reset in the middle of PFILL 0, 0, 2, 2, 0xAB, which would change four bytes. -/
theorem witness_ResetInterruptsCommand : ∃ d,
    { surface 7 4 16 [] with inbox := [.resetDuring 0x00000000000200020000000000AB0012] }.inbox =
      .resetDuring 0x00000000000200020000000000AB0012 :: [] ∧
    runWord 0x00000000000200020000000000AB0012 (surface 7 4 16 []) = .next d ∧
    d.pix = [(0, 0xAB), (1, 0xAB), (4, 0xAB), (5, 0xAB)] :=
  ⟨_, rfl, rfl, by decide⟩

theorem witness_InvariantKept : ∃ t,
    Inv (pending 0x00000000000000000003000300AA0010 (surface 7 4 16 [])) ∧
    step (pending 0x00000000000000000003000300AA0010 (surface 7 4 16 [])) = .next t ∧ t.pix = [(15, 0xAA)] :=
  ⟨_, by decide, rfl, by decide⟩

/-- A run from reset reaches a state with a valid surface of rounded stride 12 in format 4. -/
theorem witness_ReachableContextsLegal : ∃ s, Reachable s ∧ s.pfValid = true ∧ PixFormat.ofCode s.pfFormat = .g2r ∧
    s.pfStride = 12 :=
  ⟨_, .next _ _ (.start [.command 0x0000001E000000000000000A00000401] false) rfl, by decide⟩

theorem witness_NothingStops : ContextsLegal (surface 0 65536 4 []) ∧ ContextsLegal (glyph 8 1 1 0 0 []) ∧
    ContextsLegal State.reset := by decide

/-- One word per mnemonic: each is answered with status 0 in a state configured for it. -/
theorem witness_OneResponsePerCommand :
    reply 0x00000008000000000000000800000001 State.reset = some 0 ∧
    reply 0x00000004000000000002000300000402 State.reset = some 0 ∧
    reply 0x00000000000000000000000000000103 (surface 4 12 30 []) = some 12 ∧
    reply 0x00000000000000000003000300AA0010 (surface 7 4 16 []) = some 0 ∧
    reply 0x00000000000000000005000500000011 (surface 3 8 128 [(91, 0xF8)]) = some 0xF800 ∧
    reply 0x00000000000800080000000000010012 (surface 0 8 8 []) = some 0 ∧
    reply 0x00000000000000000000000000000020 (glyph 8 255 255 0 0 []) = some 65025 ∧
    reply 0x00000000000000000000000200000021 (glyph 4 3 2 2 4 [(3, 0x5A)]) = some 0xA ∧
    reply 0x0000000000000000001FF80000800830 (surface 3 8 0 []) = some 0x780F := by decide +kernel

/-- The eight causes, each raised by a word in a state; in the second two causes apply (V-BL-13). -/
theorem witness_faults :
    reply 0 State.reset = some 0x0000000100000000 ∧
    reply 0x00000010000000000000000400000901 State.reset = some 0x0000000200000000 ∧
    reply 0x00000004000000000002000300000302 State.reset = some 0x0000000300000000 ∧
    reply 0x00000000000000000000000100000330 State.reset = some 0x0000000300000000 ∧
    reply 0x00000000000000000000000000010010 State.reset = some 0x0000000400000000 ∧
    reply 0x00000000000000000004000000010010 (surface 7 4 16 []) = some 0x0000000500000000 ∧
    reply 0x00000000000000000001000000000021 (glyph 4 3 2 2 4 []) = some 0x0000000600000000 ∧
    reply 0x00000000000000000000000300000021 (glyph 4 3 2 2 4 []) = some 0x0000000700000000 ∧
    reply 0x00000000000000000000000100100430 (surface 7 8 0 []) = some 0x0000000800000000 := by decide

/-- FaultCausesPerCommand's right side holds for PSET and PIX_ADDR. -/
theorem witness_FaultCausesPerCommand : ∃ t,
    (pending 0x00000000000000000004000000010010 (surface 7 4 16 [])).inbox =
      .command 0x00000000000000000004000000010010 :: [] ∧
    HasOpcode 0x00000000000000000004000000010010 .pset ∧
    step (pending 0x00000000000000000004000000010010 (surface 7 4 16 [])) = .next t ∧
    t.outbox = [] ++ [responseWord 5 0] ∧ responseStatus (responseWord 5 0) = Cause.pixAddr.code :=
  ⟨_, rfl, by decide, rfl, by decide, by decide⟩

/-- In the reset state two causes apply to PSET 0, 0, 1: NOT_CONFIGURED and PIX_ADDR. -/
theorem witness_FaultPriority : ∃ t, ContextsLegal (pending 0x00000000000000000000000000010010 State.reset) ∧
    step (pending 0x00000000000000000000000000010010 State.reset) = .next t ∧
    Applies .notConfigured 0x00000000000000000000000000010010 State.reset ∧
    Applies .pixAddr 0x00000000000000000000000000010010 State.reset :=
  ⟨_, by decide, rfl, .inr ⟨.pset 0 0 1, by decide, .inl (by decide)⟩, .inr ⟨.pset 0 0 1, by decide, .inr (by decide)⟩⟩

theorem witness_FaultEffect : ∃ t,
    step (pending 0x00000010000000000000000400000901 (surface 4 12 30 [])) = .next t ∧
    t.outbox = [] ++ [responseWord 2 0] ∧ responseStatus (responseWord 2 0) = Cause.badFormat.code ∧
    t.pfValid = false :=
  ⟨_, rfl, by decide, by decide, by decide⟩

/-- V-FT-3: a bit already set, and the machine goes on from it; and a reset of that state. -/
theorem witness_FaultRegisterSticky :
    (∃ t, step (pending 0x00000000000000000003000300AA0010 { surface 7 4 16 [] with faultReg := 0x20 }) = .next t ∧
      0x20#32 &&& 0xFFFFFE01 = 0 ∧
      (∀ rest, (pending 0x00000000000000000003000300AA0010 { surface 7 4 16 [] with faultReg := 0x20 }).inbox ≠
        .reset :: rest) ∧
      (∀ w rest, (pending 0x00000000000000000003000300AA0010 { surface 7 4 16 [] with faultReg := 0x20 }).inbox ≠
        .resetDuring w :: rest)) ∧
    (∃ t, step { surface 7 4 16 [] with faultReg := 0x20, inbox := [.reset] } = .next t) :=
  ⟨⟨_, rfl, by decide, by simp [pending], by simp [pending]⟩, ⟨_, rfl⟩⟩

/-- An instruction outside each of the writers' families, and one in it. -/
theorem witness_RegisterWriters :
    (∃ t, exec (.pgetG8 0 0) (surface 7 4 16 []) = .next t) ∧
    (Instr.pgetG8 0 0).command.mnemonic ≠ .cfgs ∧ (Instr.pgetG8 0 0).command.mnemonic ≠ .cfgg ∧
    (Instr.pgetG8 0 0).command.mnemonic ≠ .pset ∧ (Instr.pgetG8 0 0).command.mnemonic ≠ .pfill ∧
    (Instr.pgetG8 0 0).command.mnemonic ≠ .rdreg :=
  ⟨⟨_, rfl⟩, by decide⟩

/-- Format codes at the boundary: 7 is the last legal one, 8 the first unknown. -/
theorem witness_CfgsConfigures : (7#8).toNat ≤ 7 ∧ [8, 8, 8, 1, 4, 2, 2, 1][(7#8).toNat]? = some 1 ∧ 7 < (8#8).toNat := by
  decide

theorem witness_CfgsStrideRounding : ∃ t, (0#8).toNat ≤ 7 ∧ exec (.cfgs 0 65535 4) State.reset = .next t ∧
    PixFormat.ofCode t.pfFormat ≠ .m1c ∧ PixFormat.ofCode t.pfFormat ≠ .g8 ∧
    formatPixelsPerByte (PixFormat.ofCode t.pfFormat) = some 8 :=
  ⟨_, by decide, rfl, by decide, by decide, by decide⟩

theorem witness_CfgsUnknownFormat : 7 < (8#8).toNat ∧ State.reset.pfValid = false ∧
    (Instr.psetG8 0 0 1).command.mnemonic = .pset ∧ (Instr.pgetG8 0 0).command.mnemonic = .pget ∧
    (Instr.pfillG8 0 0 0 0 0).command.mnemonic = .pfill ∧ (Instr.blendG8 4 7 15 0).command.mnemonic = .blend := by decide

theorem witness_CfggConfigures :
    ((8#8).toNat = 1 ∨ (8#8).toNat = 2 ∨ (8#8).toNat = 4 ∨ (8#8).toNat = 8) ∧
    ¬ ((3#8).toNat = 1 ∨ (3#8).toNat = 2 ∨ (3#8).toNat = 4 ∨ (3#8).toNat = 8) := by decide

theorem witness_CfggUnknownDepth :
    ¬ ((0#8).toNat = 1 ∨ (0#8).toNat = 2 ∨ (0#8).toNat = 4 ∨ (0#8).toNat = 8) ∧ State.reset.gValid = false ∧
    Instr.gsize8.command.mnemonic = .gsize ∧ (Instr.gsamp1 999 999).command.mnemonic = .gsamp := by decide

theorem witness_RdregAnswers :
    (surface 4 12 30 []).pfWritten = true ∧ (glyph 4 5 3 16 64 []).gWritten = true ∧ 9 < (10#8).toNat ∧
    ([3, 17, 32, 4, 8, 8, 32, 32][(2#8).toNat]? = some 32 ∧ (2#8).toNat ≤ 2 ∧ State.reset.pfWritten = false) ∧
    ([3, 17, 32, 4, 8, 8, 32, 32][(3#8).toNat]? = some 4 ∧ 3 ≤ (3#8).toNat ∧ State.reset.gWritten = false) ∧
    [3, 17, 32, 4, 8, 8, 32, 32][(7#8).toNat]? = some 32 := by decide

theorem witness_StatusRegister :
    (∃ t, exec (.cfgs 7 4 16) State.reset = .next t ∧ t.pfValid ≠ State.reset.pfValid) ∧
    (∃ t, exec (.cfgg 1 1 1 0 1) State.reset = .next t ∧ t.gValid ≠ State.reset.gValid) :=
  ⟨⟨_, rfl, by decide⟩, ⟨_, rfl, by decide⟩⟩

/-- The gate, the last pixel inside the window and the first outside it, in the 1 bpp formats. -/
theorem witness_PsetOneBitFormats :
    State.reset.pfValid = false ∧ (surface 0 8 8 []).pfValid = true ∧
    ((7#16).toNat + (7#16).toNat * (surface 0 8 8 []).pfStride.toNat) >>> 3 < (surface 0 8 8 []).pfLen.toNat ∧
    (surface 0 8 8 []).pfLen.toNat ≤ ((0#16).toNat + (8#16).toNat * (surface 0 8 8 []).pfStride.toNat) >>> 3 ∧
    ((7#16).toNat >>> 3) * (surface 2 8 8 []).pfStride.toNat + (7#16).toNat < (surface 2 8 8 []).pfLen.toNat ∧
    (surface 2 8 8 []).pfLen.toNat ≤ ((8#16).toNat >>> 3) * (surface 2 8 8 []).pfStride.toNat + (0#16).toNat := by
  decide

theorem witness_PsetFieldFormats :
    State.reset.pfValid = false ∧ (surface 4 12 12 []).pfValid = true ∧ (surface 5 8 16 []).pfValid = true ∧
    ((11#16).toNat + (3#16).toNat * (surface 4 12 12 []).pfStride.toNat) >>> 2 < (surface 4 12 12 []).pfLen.toNat ∧
    (surface 4 12 12 []).pfLen.toNat ≤ ((0#16).toNat + (4#16).toNat * (surface 4 12 12 []).pfStride.toNat) >>> 2 ∧
    ((7#16).toNat + (3#16).toNat * (surface 5 8 16 []).pfStride.toNat) >>> 1 < (surface 5 8 16 []).pfLen.toNat ∧
    (surface 5 8 16 []).pfLen.toNat ≤ ((0#16).toNat + (4#16).toNat * (surface 5 8 16 []).pfStride.toNat) >>> 1 := by
  decide

/-- The cell whose second byte is the first one outside the buffer (V-PX-13), and its neighbour inside. -/
theorem witness_PsetWholeByteFormats :
    State.reset.pfValid = false ∧ (surface 7 4 16 []).pfValid = true ∧ (surface 3 4 3 []).pfValid = true ∧
    (3#16).toNat + (3#16).toNat * (surface 7 4 16 []).pfStride.toNat < (surface 7 4 16 []).pfLen.toNat ∧
    (surface 7 4 16 []).pfLen.toNat ≤ (0#16).toNat + (4#16).toNat * (surface 7 4 16 []).pfStride.toNat ∧
    2 * ((0#16).toNat + (0#16).toNat * (surface 3 4 3 []).pfStride.toNat) + 1 < (surface 3 4 3 []).pfLen.toNat ∧
    (surface 3 4 3 []).pfLen.toNat ≤ 2 * ((1#16).toNat + (0#16).toNat * (surface 3 4 3 []).pfStride.toNat) + 1 := by
  decide

/-- As for PSET, and the two nibbles of a byte of 4 bpp. -/
theorem witness_PgetAnswers :
    State.reset.pfValid = false ∧ (surface 0 8 8 []).pfValid = true ∧
    ((7#16).toNat + (7#16).toNat * (surface 0 8 8 []).pfStride.toNat) >>> 3 < (surface 0 8 8 []).pfLen.toNat ∧
    ((7#16).toNat >>> 3) * (surface 2 8 8 []).pfStride.toNat + (7#16).toNat < (surface 2 8 8 []).pfLen.toNat ∧
    2 * ((0#16).toNat + (0#16).toNat * (surface 3 4 2 []).pfStride.toNat) + 1 < (surface 3 4 2 []).pfLen.toNat ∧
    ((11#16).toNat + (3#16).toNat * (surface 4 12 12 []).pfStride.toNat) >>> 2 < (surface 4 12 12 []).pfLen.toNat ∧
    ((7#16).toNat + (3#16).toNat * (surface 5 8 16 []).pfStride.toNat) >>> 1 < (surface 5 8 16 []).pfLen.toNat ∧
    (3#16).toNat + (3#16).toNat * (surface 7 4 16 []).pfStride.toNat < (surface 7 4 16 []).pfLen.toNat ∧
    (surface 7 4 16 []).pfLen.toNat ≤ (0#16).toNat + (4#16).toNat * (surface 7 4 16 []).pfStride.toNat := by decide

/-- V-PX-8 as two pending words; another location; two coordinates with one linear index and two with different ones. -/
theorem witness_PixelRoundTrip :
    (∃ t, encodeCommand (.pset 7 2 0x1234) = 0x00000000000000000002000712340010 ∧
      encodeCommand (.pget 7 2) = 0x00000000000000000002000700000011 ∧
      step { surface 7 8 24 [] with inbox := [.command (encodeCommand (.pset 7 2 0x1234)),
        .command (encodeCommand (.pget 7 2))] } = .next t ∧
      t.outbox = [] ++ [responseWord 0 0]) ∧
    (∃ before after later, placeOf .g4rm 8 3 1 ≠ placeOf .g4rm 8 2 1 ∧
      exec (pgetVariant .g4rm 3 1) (surface 5 8 16 [(5, 0x0B)]) = .next before ∧
      before.outbox = [] ++ [responseWord 0 0xB] ∧
      exec (psetVariant .g4rm 2 1 0xA) (surface 5 8 16 [(5, 0x0B)]) = .next after ∧
      exec (pgetVariant .g4rm 3 1) after = .next later) ∧
    (PixFormat.g2r ≠ .m1c ∧ 12 % formatGranularity .g2r = 0 ∧ 13 + 0 * 12 = 1 + 1 * 12) :=
  ⟨⟨_, by decide, by decide, rfl, by decide⟩, ⟨_, _, _, by decide, rfl, by decide, rfl, rfl⟩, by decide⟩

theorem witness_AliasedCoordinates :
    (PixFormat.g8 ≠ .m1c ∧ (surface 7 4 8 []).pfStride.toNat % formatGranularity .g8 = 0 ∧
      (5#16).toNat + (0#16).toNat * (surface 7 4 8 []).pfStride.toNat =
        (1#16).toNat + (1#16).toNat * (surface 7 4 8 []).pfStride.toNat) ∧
    ((5#16).toNat = (1#16).toNat + (surface 7 4 8 []).pfStride.toNat ∧ (1#16).toNat = (0#16).toNat + 1) ∧
    ((9#16).toNat = (1#16).toNat + (surface 2 8 16 []).pfStride.toNat ∧ (8#16).toNat = (0#16).toNat + 8) := by decide

theorem witness_CellByteOrder : ∃ t, step (pending 0x000000000000000000050005F8000010
    { surface 3 8 128 [] with bigEndian := true }) = .next t ∧ t.bigEndian = true :=
  ⟨_, rfl, by decide⟩

/-- An 8 by 9 column-major surface needs two bands: 16 bytes, and 15 are too few. -/
theorem witness_SmallestBuffer : 8 % formatGranularity .m1c = 0 ∧ 7 < 8 ∧ 8 < 9 ∧ 15 < smallestLength .m1c 8 9 := by
  decide

theorem witness_WritesStayInWindow : ∃ t, exec (.psetG8 3 3 0xAA) (surface 7 4 16 [(16, 1)]) = .next t ∧
    (surface 7 4 16 [(16, 1)]).pfLen.toNat ≤ 16 :=
  ⟨_, rfl, by decide⟩

/-- Two memories that agree below PF_LEN (G_LEN is 0) and differ at it. -/
theorem witness_ReadsStayInWindow : ∃ t, exec (.pgetG8 3 3) (surface 7 4 16 [(15, 2), (16, 1)]) = .next t ∧
    (∀ a, a < (surface 7 4 16 [(15, 2), (16, 1)]).pfLen.toNat →
      Memory.read [(15, 2), (16, 9)] a = (surface 7 4 16 [(15, 2), (16, 1)]).pix.read a) ∧
    (∀ a, a < (surface 7 4 16 [(15, 2), (16, 1)]).gLen.toNat →
      Memory.read [(0, 7)] a = (surface 7 4 16 [(15, 2), (16, 1)]).gly.read a) :=
  ⟨_, rfl, by decide, by decide⟩

/-- The empty rectangle of either kind, and the gate (V-FL-16, V-FL-17). -/
theorem witness_FillEmptyRectangle : ((0#16) = 0 ∨ (5#16) = 0) ∧ ((5#16) = 0 ∨ (0#16) = 0) ∧
    (surface 7 4 16 []).pfValid = true ∧ State.reset.pfValid = false := by decide

/-- V-FL-15: the footprint ends at offset 16 of 16 bytes. -/
theorem witness_FillFootprint : (3#16) ≠ 0 ∧ (1#16) ≠ 0 ∧ (surface 7 4 16 []).pfValid = true ∧
    (surface 7 4 16 []).pfLen.toNat ≤ footprintTop .g8 (surface 7 4 16 []).pfStride.toNat
      ((2#16).toNat + (3#16).toNat - 1) ((3#16).toNat + (1#16).toNat - 1) := by decide

/-- The last rectangle that fits, in each format. -/
theorem witness_FillCompletes : (3#16) ≠ 0 ∧ (1#16) ≠ 0 ∧
    footprintTop .g8 4 ((1#16).toNat + (3#16).toNat - 1) ((3#16).toNat + (1#16).toNat - 1) < 16 ∧
    footprintTop .rgb565 4 ((1#16).toNat + (3#16).toNat - 1) ((3#16).toNat + (1#16).toNat - 1) < 32 ∧
    footprintTop .g2r 4 ((1#16).toNat + (3#16).toNat - 1) ((3#16).toNat + (1#16).toNat - 1) < 4 ∧
    footprintTop .g4rm 4 ((1#16).toNat + (3#16).toNat - 1) ((3#16).toNat + (1#16).toNat - 1) < 8 ∧
    footprintTop .g4rl 4 ((1#16).toNat + (3#16).toNat - 1) ((3#16).toNat + (1#16).toNat - 1) < 8 ∧
    footprintTop .m1rm 8 ((5#16).toNat + (3#16).toNat - 1) ((7#16).toNat + (1#16).toNat - 1) < 8 ∧
    footprintTop .m1rl 8 ((5#16).toNat + (3#16).toNat - 1) ((7#16).toNat + (1#16).toNat - 1) < 8 ∧
    footprintTop .m1c 8 ((5#16).toNat + (3#16).toNat - 1) ((7#16).toNat + (1#16).toNat - 1) < 8 := by decide

/-- V-FL-4: pixel (2, 0) is in the rectangle, bit 0 of byte 0 belongs to none, and a list of the rectangle. -/
theorem witness_FillResult : ∃ t, exec (pfillVariant .m1rm 2 0 3 1 1) (surface 0 16 2 []) = .next t ∧
    t.outbox = [] ++ [responseWord 0 0] ∧ InRect 2 0 3 1 2 0 ∧
    (∀ xx yy, InRect 2 0 3 1 xx yy → ¬ OwnsBit .m1rm 16 xx yy 0 0) ∧
    (∀ q : Nat × Nat, q ∈ [(4, 0), (2, 0), (3, 0)] ↔ InRect 2 0 3 1 q.1 q.2) := by
  refine ⟨_, rfl, by decide, by decide, ?_, ?_⟩
  · intro xx yy h
    simp only [OwnsBit, placeOf, placeM1RM]
    omega
  · rintro ⟨a, b⟩
    simp only [List.mem_cons, Prod.mk.injEq, List.not_mem_nil, or_false]
    omega

/-- V-FL-9, and each of the three checks: the gate, w or h of 0, the footprint at the window's end. -/
theorem witness_FillSubByteRows : packingOf .g2r = some ⟨4, 3, 0x55, 2, true⟩ ∧
    (surface 4 12 3 []).pfStride.toNat % formatGranularity .g2r = 0 ∧ (surface 4 12 3 []).pfValid = true ∧
    (9#16) ≠ 0 ∧ (1#16) ≠ 0 ∧ footprintTop .g2r 12 ((1#16).toNat + (9#16).toNat - 1) ((0#16).toNat + (1#16).toNat - 1) < 3 ∧
    3 ≤ footprintTop .g2r 12 ((4#16).toNat + (9#16).toNat - 1) ((0#16).toNat + (1#16).toNat - 1) := by decide

theorem witness_PackingForms : packingOf .m1rm = some ⟨8, 1, 0xFF, 1, true⟩ ∧ packingOf .m1rl = some ⟨8, 1, 0xFF, 1, false⟩ ∧
    packingOf .g2r = some ⟨4, 3, 0x55, 2, true⟩ ∧ packingOf .g4rm = some ⟨2, 15, 0x11, 4, false⟩ ∧
    packingOf .g4rl = some ⟨2, 15, 0x11, 4, true⟩ := by decide

/-- V-FL-6 fits 16 bytes; one column further does not fit 13. -/
theorem witness_FillColumnBands : (surface 2 8 16 []).pfValid = true ∧ (3#16) ≠ 0 ∧ (6#16) ≠ 0 ∧
    (((5#16).toNat + (6#16).toNat - 1) >>> 3) * 8 + ((2#16).toNat + (3#16).toNat - 1) < 16 ∧
    13 ≤ (((5#16).toNat + (6#16).toNat - 1) >>> 3) * 8 + ((3#16).toNat + (3#16).toNat - 1) := by decide

/-- V-FL-12 and V-FL-8 fit; the same rectangles in buffers one byte shorter than needed do not. -/
theorem witness_FillWholeCells : (surface 7 8 24 []).pfValid = true ∧ (3#16) ≠ 0 ∧ (2#16) ≠ 0 ∧
    (2#16).toNat + (3#16).toNat - 1 + ((1#16).toNat + (2#16).toNat - 1) * (surface 7 8 24 []).pfStride.toNat < 21 ∧
    20 ≤ (2#16).toNat + (3#16).toNat - 1 + ((1#16).toNat + (2#16).toNat - 1) * (surface 7 8 24 []).pfStride.toNat ∧
    2 * ((1#16).toNat + (2#16).toNat - 1 + ((1#16).toNat + (1#16).toNat - 1) * 4) + 1 < 14 ∧
    13 ≤ 2 * ((1#16).toNat + (2#16).toNat - 1 + ((1#16).toNat + (1#16).toNat - 1) * 4) + 1 ∧
    InRect 2 1 3 2 4 2 ∧ (∀ xx yy, InRect 2 1 3 2 xx yy → 9 ≠ xx + yy * 8) ∧
    (∀ xx yy, InRect 1 1 2 1 xx yy → 9 / 2 ≠ xx + yy * 4) := by
  refine ⟨by decide, by decide, by decide, by decide, by decide, by decide, by decide, by decide, ?_, ?_⟩ <;>
    intro xx yy h <;> omega

/-- A completed fill, a pixel inside it, a pixel with a place of its own outside it, and a rectangle inside a surface. -/
theorem witness_FillLaws : ∃ t before after,
    exec (pfillVariant .g8 1 1 2 1 9) (surface 7 4 16 []) = .next t ∧ t.outbox = [] ++ [responseWord 0 0] ∧
    InRect (1#16).toNat (1#16).toNat (2#16).toNat (1#16).toNat (2#16).toNat (1#16).toNat ∧
    (∀ x' y', InRect 1 1 2 1 x' y' → placeOf .g8 4 x' y' ≠ placeOf .g8 4 3 1) ∧
    exec (pgetVariant .g8 3 1) (surface 7 4 16 []) = .next before ∧ before.outbox = [] ++ [responseWord 0 0] ∧
    exec (pgetVariant .g8 3 1) t = .next after ∧
    (4 % formatGranularity .g8 = 0 ∧ 1 + 2 ≤ 4 ∧ 3 < 4) := by
  refine ⟨_, _, _, rfl, by decide, by decide, ?_, rfl, by decide, rfl, by decide⟩
  intro x' y' h
  simp only [placeOf, placeG8, ne_eq, Place.bits.injEq, and_true]
  omega

theorem witness_PixelWritesIdempotent :
    (∃ t u, (Instr.psetG2R 6 1 2).command.mnemonic = .pset ∧
      exec (.psetG2R 6 1 2) (surface 4 12 12 [(4, 0xFF)]) = .next t ∧ exec (.psetG2R 6 1 2) t = .next u) ∧
    (∃ t u, (Instr.pfillG2R 1 0 9 1 2).command.mnemonic = .pfill ∧
      exec (.pfillG2R 1 0 9 1 2) (surface 4 12 3 []) = .next t ∧ exec (.pfillG2R 1 0 9 1 2) t = .next u) :=
  ⟨⟨_, _, by decide, rfl, rfl⟩, ⟨_, _, by decide, rfl, rfl⟩⟩

theorem witness_GsizeAnswers : (glyph 8 255 255 0 0 []).gValid = true ∧ State.reset.gValid = false := by decide

/-- The gate, the edges of the glyph, and the last byte inside the window and the first outside (V-GS-7 to V-GS-10). -/
theorem witness_GsampAnswers :
    State.reset.gValid = false ∧ (glyph 4 3 2 2 4 []).gValid = true ∧
    (glyph 4 3 2 2 4 []).gWidth.toNat ≤ (3#16).toNat ∧ (glyph 4 3 2 2 4 []).gHeight.toNat ≤ (2#16).toNat ∧
    (2#16).toNat < (glyph 4 3 2 2 4 []).gWidth.toNat ∧ (1#16).toNat < (glyph 4 3 2 2 4 []).gHeight.toNat ∧
    2 + (0#16).toNat * ((3 + 1) / 2) + ((2#16).toNat >>> 1) < (glyph 4 3 2 2 4 []).gLen.toNat ∧
    (glyph 4 3 2 2 4 []).gLen.toNat ≤ 2 + (1#16).toNat * ((3 + 1) / 2) + ((0#16).toNat >>> 1) ∧
    0 + (0#16).toNat * ((16 + 7) / 8) + ((15#16).toNat >>> 3) < (glyph 1 16 1 0 2 []).gLen.toNat ∧
    0 + (0#16).toNat * ((8 + 3) / 4) + ((7#16).toNat >>> 2) < (glyph 2 8 1 0 2 []).gLen.toNat ∧
    4 + (1#16).toNat * 3 + (2#16).toNat < (glyph 8 3 2 4 10 []).gLen.toNat := by decide

/-- Two samples of one byte whose bits overlap are the same sample; (4, 1) is the last of a 5 by 2 glyph. -/
theorem witness_SamplesStayInBitmapAndApart : 4 < 5 ∧ 1 < 2 ∧
    sampleByte Depth.d2.bits 5 0 4 1 = sampleByte Depth.d2.bits 5 0 4 1 ∧
    4 % (8 / Depth.d2.bits) * Depth.d2.bits < 4 % (8 / Depth.d2.bits) * Depth.d2.bits + Depth.d2.bits := by decide

theorem witness_SamplingIsRowMajorPacking : 4 < 5 := by decide

/-- Depths legal and not, the gate, and coverages 0, inside, the largest and the first beyond it. -/
theorem witness_BlendSingleChannel :
    (PixFormat.g4rm, 15) ∈ [(PixFormat.m1rm, 1), (.m1rl, 1), (.m1c, 1), (.g2r, 3), (.g4rm, 15), (.g4rl, 15), (.g8, 255)] ∧
    ¬ ((3#8).toNat = 1 ∨ (3#8).toNat = 2 ∨ (3#8).toNat = 4 ∨ (3#8).toNat = 8) ∧
    (4#8).toNat = 4 ∧ State.reset.pfValid = false ∧ (surface 5 8 0 []).pfValid = true ∧
    (0#8).toNat ≤ 2 ^ (4#8).toNat - 1 ∧ (7#8).toNat ≤ 2 ^ (4#8).toNat - 1 ∧ (15#8).toNat = 2 ^ (4#8).toNat - 1 ∧
    2 ^ (4#8).toNat - 1 < (16#8).toNat := by decide

theorem witness_BlendThreeFields :
    ¬ ((0#8).toNat = 1 ∨ (0#8).toNat = 2 ∨ (0#8).toNat = 4 ∨ (0#8).toNat = 8) ∧ State.reset.pfValid = false ∧
    (surface 3 8 0 []).pfValid = true ∧ (8#8).toNat = 8 ∧ (0#8).toNat ≤ 2 ^ (8#8).toNat - 1 ∧
    (128#8).toNat ≤ 2 ^ (8#8).toNat - 1 ∧ (255#8).toNat = 2 ^ (8#8).toNat - 1 ∧
    2 ^ (1#8).toNat - 1 < (2#8).toNat := by decide

theorem witness_LerpProperties : 15 = 15 ∧ 7 ≤ 15 ∧ 7 ≤ 9 ∧ 9 ≤ 15 ∧ 0 ≤ 15 ∧ 65535 < 65536 := by decide

theorem witness_BlendLaws :
    (surface 5 8 0 []).pfValid = true ∧ (4#8).toNat = 4 ∧ (15#8).toNat = 2 ^ (4#8).toNat - 1 ∧
    (15#16).toNat ≤ formatMax .g4rm ∧ (0#16).toNat ≤ formatMax .g4rm ∧ (7#8).toNat ≤ (9#8).toNat ∧
    (9#8).toNat ≤ 2 ^ (4#8).toNat - 1 ∧ (surface 3 8 0 []).pfValid = true ∧
    (0xFFFF#16).toNat ≤ formatMax .rgb565 := by decide

/-- The same BLEND word in two states that share format and validity only. -/
theorem witness_BlendReadsFormatAndValidOnly : ∃ t,
    (surface 3 8 0 []).pfFormat = (surface 3 16 99 [(3, 1)]).pfFormat ∧
    (surface 3 8 0 []).pfValid = (surface 3 16 99 [(3, 1)]).pfValid ∧
    encodeCommand (.blend 8 128 0xF800 0x1F) = 0x0000000000000000001FF80000800830 ∧
    step (pending (encodeCommand (.blend 8 128 0xF800 0x1F)) (surface 3 8 0 [])) = .next t ∧
    t.outbox = [0x000000000000780F] :=
  ⟨_, by decide, by decide, by decide, rfl, by decide⟩

end Sys2Proof.Tests
end

section
/-! The state layer of the proofs. `CommandEffect` says once what a command can leave behind and `StepEffect` what a
step can; legal contexts (10_state.md R22) and the sticky FAULT register (R24) are read off their cases. -/

namespace Sys2Proof.Machine

/-! ## What a command can leave behind -/

/-- The states a command can leave, one constructor per way of ending, with the checks that were passed: an answer, a
fault, a memory update in the window, a context loaded or invalidated. -/
inductive CommandEffect (s : State) : State → Prop where
  | answer (v : BitVec 32) : CommandEffect s (s.respond v)
  | draw (v : BitVec 32) : CommandEffect s (s.countDraw.respond v)
  | fault (c : Cause) : CommandEffect s (s.raise c)
  | store (f : PixFormat) (x y : BitVec 16) (c : Colour)
      (inside : (placeOf f s.pfStride.toNat x.toNat y.toNat).last < s.pfLen.toNat) :
      CommandEffect s
        ((s.setPix ((placeOf f s.pfStride.toNat x.toNat y.toNat).store s.bigEndian s.pix c)).respond 0)
  | fill (f : PixFormat) (x y w h : BitVec 16) (c : Colour) (width : w ≠ 0) (height : h ≠ 0)
      (inside : topOffset (placeOf f s.pfStride.toNat) x.toNat y.toNat w.toNat h.toNat < s.pfLen.toNat) :
      CommandEffect s
        ((s.setPix (fillPixels (placeOf f s.pfStride.toNat) s.bigEndian x.toNat y.toNat w.toNat h.toNat c
          s.pix)).respond 0)
  | surface (fmt : BitVec 8) (stride : BitVec 16) (len : BitVec 32) (format : fmt.toNat ≤ 7) :
      CommandEffect s ((s.setSurface (fmt.setWidth 3)
        (BitVec.ofNat 17 (roundUp stride.toNat (formatGranularity (PixFormat.ofCode (fmt.setWidth 3))))) len).respond 0)
  | surfaceRefused : CommandEffect s (s.invalidateSurface.raise .badFormat)
  | glyph (bpp width height : BitVec 8) (offset len : BitVec 32) (d : Depth) (depth : bpp.toNat = d.bits) :
      CommandEffect s ((s.setGlyph (bpp.setWidth 4) width height offset len).respond 0)
  | glyphRefused : CommandEffect s (s.invalidateGlyph.raise .badBpp)

theorem configureSurface_effect (fmt : BitVec 8) (stride : BitVec 16) (len : BitVec 32) (s : State) :
    CommandEffect s (configureSurface fmt stride len s) := by
  obtain ⟨-, h⟩ | ⟨hf, h⟩ := configureSurface_cases fmt stride len s <;> rw [h]
  · exact .surfaceRefused
  · exact .surface fmt stride len hf

theorem configureGlyph_effect (bpp width height : BitVec 8) (offset len : BitVec 32) (s : State) :
    CommandEffect s (configureGlyph bpp width height offset len s) := by
  obtain ⟨-, h⟩ | ⟨d, hd, h⟩ := configureGlyph_cases bpp width height offset len s <;> rw [h]
  · exact .glyphRefused
  · exact .glyph bpp width height offset len d ((ofBits_eq_some_iff _ d).mp hd)

theorem readRegister_effect (reg : BitVec 8) (s : State) : CommandEffect s (readRegister reg s) := by
  obtain ⟨-, h⟩ | ⟨-, -, h⟩ | ⟨-, -, h⟩ := readRegister_cases reg s <;> rw [h]
  · exact .fault _
  · exact .draw _
  · exact .answer _

theorem setPixel_effect (f : PixFormat) (x y : BitVec 16) (c : Colour) (s : State) :
    CommandEffect s (setPixel (placeOf f s.pfStride.toNat x.toNat y.toNat) c s) := by
  obtain ⟨-, h⟩ | ⟨-, -, h⟩ | ⟨-, hin, h⟩ :=
    setPixel_cases (placeOf f s.pfStride.toNat x.toNat y.toNat) c s <;> rw [h]
  · exact .fault _
  · exact .fault _
  · exact .store f x y c hin

theorem getPixel_effect (place : Place) (s : State) : CommandEffect s (getPixel place s) := by
  obtain ⟨-, h⟩ | ⟨-, -, h⟩ | ⟨-, -, h⟩ := getPixel_cases place s <;> rw [h]
  · exact .fault _
  · exact .fault _
  · exact .answer _

theorem fillRectangle_effect (f : PixFormat) (x y w h : BitVec 16) (c : Colour) (s : State) :
    CommandEffect s (fillRectangle (placeOf f s.pfStride.toNat) x y w h c s) := by
  obtain ⟨-, e⟩ | ⟨-, -, e⟩ | ⟨-, -, -, -, e⟩ | ⟨-, hw, hh, hin, e⟩ :=
    fillRectangle_cases (placeOf f s.pfStride.toNat) x y w h c s <;> rw [e]
  · exact .fault _
  · exact .answer _
  · exact .fault _
  · exact .fill f x y w h c hw hh hin

theorem glyphSize_effect (d : Depth) (s : State) : CommandEffect s (glyphSize d s) := by
  obtain ⟨-, h⟩ | ⟨-, h⟩ := glyphSize_cases d s <;> rw [h]
  · exact .fault _
  · exact .answer _

theorem sampleGlyph_effect (d : Depth) (x y : BitVec 16) (s : State) : CommandEffect s (sampleGlyph d x y s) := by
  obtain ⟨-, h⟩ | ⟨-, -, h⟩ | ⟨-, -, -, -, h⟩ | ⟨-, -, -, -, h⟩ := sampleGlyph_cases d x y s <;> rw [h]
  · exact .fault _
  · exact .fault _
  · exact .fault _
  · exact .answer _

theorem blendColours_effect (blend : Nat → Nat → Colour → Colour → Colour) (bpp a : BitVec 8) (fg bg : Colour)
    (s : State) : CommandEffect s (blendColours blend bpp a fg bg s) := by
  obtain ⟨-, h⟩ | ⟨_, -, -, h⟩ | ⟨_, -, -, -, h⟩ | ⟨_, -, -, -, h⟩ := blendColours_cases blend bpp a fg bg s <;>
    rw [h]
  · exact .fault _
  · exact .fault _
  · exact .fault _
  · exact .answer _

/-- Every instruction ends in one of the ways of `CommandEffect`. -/
theorem exec_effect {s t : State} (i : Instr) (h : exec i s = .next t) : CommandEffect s t := by
  suffices ∃ u, exec i s = .next u ∧ CommandEffect s u by
    obtain ⟨u, hu, effect⟩ := this
    cases hu.symm.trans h
    exact effect
  clear h
  induction i using instr_shapes with
  | cfgs fmt stride len => exact ⟨_, rfl, configureSurface_effect fmt stride len s⟩
  | cfgg bpp width height offset len => exact ⟨_, rfl, configureGlyph_effect bpp width height offset len s⟩
  | rdreg reg => exact ⟨_, rfl, readRegister_effect reg s⟩
  | pset f x y c => exact ⟨_, exec_psetVariant f x y c s, setPixel_effect f x y c s⟩
  | pget f x y => exact ⟨_, exec_pgetVariant f x y s, getPixel_effect _ s⟩
  | pfill f x y w h c => exact ⟨_, exec_pfillVariant f x y w h c s, fillRectangle_effect f x y w h c s⟩
  | gsize d => exact ⟨_, exec_gsizeVariant d s, glyphSize_effect d s⟩
  | gsamp d x y => exact ⟨_, exec_gsampVariant d x y s, sampleGlyph_effect d x y s⟩
  | blend f bpp a fg bg => exact ⟨_, exec_blendVariant f bpp a fg bg s, blendColours_effect _ bpp a fg bg s⟩

/-- Every command word, legal or not, ends in one of the ways of `CommandEffect`. -/
theorem runWord_effect {s t : State} {w : Word} (h : runWord w s = .next t) : CommandEffect s t := by
  obtain ⟨i, -, e⟩ | ⟨_, -, -, e⟩ | ⟨-, -, e⟩ | ⟨-, -, e⟩ := runWord_cases w s <;> rw [e] at h
  · exact exec_effect i h
  · cases h; exact .fault .illegalCmd
  · cases h; exact .fault .notConfigured
  · cases h

/-! ## What a step can leave behind -/

/-- The states a step can leave, one constructor per move. -/
inductive StepEffect (s : State) : State → Prop where
  | idle (inbox : s.inbox = []) : StepEffect s s
  | command {t : State} (w : Word) (rest : List HostMove) (inbox : s.inbox = .command w :: rest)
      (effect : CommandEffect (s.setInbox rest) t) : StepEffect s t
  | writePix (offset : BitVec 32) (b : Byte) (rest : List HostMove) (inbox : s.inbox = .writePix offset b :: rest) :
      StepEffect s ((s.setInbox rest).hostWritePix offset b)
  | writeGly (offset : BitVec 32) (b : Byte) (rest : List HostMove) (inbox : s.inbox = .writeGly offset b :: rest) :
      StepEffect s ((s.setInbox rest).hostWriteGly offset b)
  | reset (rest : List HostMove) (inbox : s.inbox = .reset :: rest) : StepEffect s (s.setInbox rest).resetRegisters
  | resetDuring {d : State} (w : Word) (rest : List HostMove) (inbox : s.inbox = .resetDuring w :: rest)
      (effect : CommandEffect (s.setInbox rest) d) : StepEffect s ((s.setInbox rest).abandon d.pix)

/-- An abandoned command is one that would have answered. -/
theorem abandonWord_next {s t : State} {w : Word} (h : abandonWord w s = .next t) :
    ∃ d, runWord w s = .next d ∧ t = s.abandon d.pix := by
  unfold abandonWord at h
  cases hd : runWord w s with
  | next d => rw [hd] at h; cases h; exact ⟨d, rfl, rfl⟩
  | fault r => rw [hd] at h; cases h
  | refused r => rw [hd] at h; cases h

/-- Every step ends in one of the ways of `StepEffect`. -/
theorem step_effect {s t : State} (h : step s = .next t) : StepEffect s t := by
  obtain ⟨hin, e⟩ | ⟨move, rest, hin, e⟩ := step_cases s <;> rw [e] at h
  · cases h; exact .idle hin
  · cases move with
    | command w => exact .command w rest hin (runWord_effect h)
    | writePix offset b => cases h; exact .writePix offset b rest hin
    | writeGly offset b => cases h; exact .writeGly offset b rest hin
    | reset => cases h; exact .reset rest hin
    | resetDuring w =>
      obtain ⟨d, hd, rfl⟩ := abandonWord_next h
      exact .resetDuring w rest hin (runWord_effect hd)

/-! ## Legal contexts (10_state.md R22) -/

/-- A rounded stride fits its 17-bit register (10_state.md R14, 40_config.md R80). -/
theorem roundedStride_toNat (f : PixFormat) (stride : BitVec 16) :
    (BitVec.ofNat 17 (roundUp stride.toNat (formatGranularity f))).toNat =
      roundUp stride.toNat (formatGranularity f) := by
  obtain ⟨-, -, -, hle⟩ := roundUp_granularity f stride.isLt
  rw [BitVec.toNat_ofNat, Nat.mod_eq_of_lt (by omega)]

/-- A depth accepted by CFGG is kept by the 4-bit G_BPP (10_state.md R17). -/
theorem acceptedDepth_toNat {bpp : BitVec 8} {d : Depth} (h : bpp.toNat = d.bits) :
    (bpp.setWidth 4).toNat = 1 ∨ (bpp.setWidth 4).toNat = 2 ∨ (bpp.setWidth 4).toNat = 4 ∨
      (bpp.setWidth 4).toNat = 8 := by
  rw [BitVec.toNat_setWidth, h]
  cases d <;> decide

/-- Commands keep the contexts legal: only CFGS and CFGG touch them, and what these load is legal. -/
theorem CommandEffect.contextsLegal {s t : State} (effect : CommandEffect s t) (legal : ContextsLegal s) :
    ContextsLegal t := by
  obtain ⟨hsurface, hglyph⟩ := legal
  cases effect with
  | answer v => exact ⟨hsurface, hglyph⟩
  | draw v => exact ⟨hsurface, hglyph⟩
  | fault c => exact ⟨hsurface, hglyph⟩
  | store f x y c inside => exact ⟨hsurface, hglyph⟩
  | fill f x y w h c width height inside => exact ⟨hsurface, hglyph⟩
  | surface fmt stride len format =>
    obtain ⟨haligned, -, -, hle⟩ := roundUp_granularity (PixFormat.ofCode (fmt.setWidth 3)) stride.isLt
    refine ⟨fun _ => ?_, hglyph⟩
    rw [State.respond_pfStride, State.setSurface_pfStride, State.respond_pfFormat, State.setSurface_pfFormat,
      roundedStride_toNat]
    exact ⟨haligned, hle⟩
  | surfaceRefused => exact ⟨nofun, hglyph⟩
  | glyph bpp width height offset len d depth => exact ⟨hsurface, fun _ => acceptedDepth_toNat depth⟩
  | glyphRefused => exact ⟨hsurface, nofun⟩

/-- Every step keeps the contexts legal: the host's writes do not touch them and reset invalidates both. -/
theorem step_contextsLegal {s t : State} (h : step s = .next t) (legal : ContextsLegal s) : ContextsLegal t := by
  cases step_effect h with
  | idle inbox => exact legal
  | command w rest inbox effect => exact effect.contextsLegal legal
  | writePix offset b rest inbox => exact legal
  | writeGly offset b rest inbox => exact legal
  | reset rest inbox => exact ⟨nofun, nofun⟩
  | resetDuring w rest inbox effect => exact ⟨nofun, nofun⟩

theorem Reachable.contextsLegal {s : State} (h : Reachable s) : ContextsLegal s := by
  induction h with
  | start moves big => exact ⟨nofun, nofun⟩
  | next s t _ hstep ih => exact step_contextsLegal hstep ih

/-- Where pixels are packed into bytes, a byte's worth of pixels is the stride's granularity (00_scope.md R8). -/
theorem formatGranularity_eq_pixelsPerByte {f : PixFormat} {ppb : Nat} (h : formatPixelsPerByte f = some ppb) :
    formatGranularity f = ppb := by
  cases f <;> cases h <;> rfl

/-- With an aligned stride, whole rows are whole bytes and do not shift a pixel inside its byte. -/
theorem add_mul_mod_of_aligned {stride ppb : Nat} (aligned : stride % ppb = 0) (x y : Nat) :
    (x + y * stride) % ppb = x % ppb := by
  obtain ⟨k, rfl⟩ := Nat.dvd_of_mod_eq_zero aligned
  rw [Nat.mul_left_comm, Nat.add_mul_mod_self_left]

/-- Settles O12, by induction over the run: every step keeps the contexts legal, and then the rows are whole bytes. -/
theorem reachableContextsLegal : Obligations.ReachableContextsLegal := by
  intro s hs
  have legal : ContextsLegal s := hs.contextsLegal
  refine ⟨legal, fun hvalid ppb _ hppb x y => ?_⟩
  obtain ⟨haligned, -⟩ := legal.1 hvalid
  rw [formatGranularity_eq_pixelsPerByte hppb] at haligned
  exact add_mul_mod_of_aligned haligned x y

/-! ## The FAULT register (10_state.md R24) -/

/-- Recording a fault keeps the bits already set. -/
theorem recordFault_and_self (reg : BitVec 32) (c : Cause) : recordFault reg c &&& reg = reg := by
  apply BitVec.eq_of_getLsbD_eq
  intro k _
  simp only [recordFault, BitVec.getLsbD_and, BitVec.getLsbD_or]
  cases reg.getLsbD k <;> simp

/-- No cause has its bit among the unused ones, 0 and 9 to 31 (60_exceptions.md R180). -/
theorem Cause.bit_and_unused (c : Cause) : c.bit &&& 0xFFFFFE01 = 0 := by
  cases c <;> decide

/-- Recording a fault leaves the unused bits as they are. -/
theorem recordFault_and_unused (reg : BitVec 32) (c : Cause) :
    recordFault reg c &&& 0xFFFFFE01 = reg &&& 0xFFFFFE01 := by
  have hor : recordFault reg c &&& 0xFFFFFE01 = (reg &&& 0xFFFFFE01) ||| (c.bit &&& 0xFFFFFE01) :=
    BitVec.and_or_distrib_right
  rw [hor, c.bit_and_unused]
  exact BitVec.or_zero

/-- A command appends one response; FAULT is kept when its status is 0, and otherwise records the cause it reports. -/
theorem CommandEffect.response {s t : State} (effect : CommandEffect s t) :
    ∃ r, t.outbox = s.outbox ++ [r] ∧
      ((responseStatus r = 0 ∧ t.faultReg = s.faultReg) ∨
        ∃ c : Cause, responseStatus r = c.code ∧ t.faultReg = recordFault s.faultReg c) := by
  cases effect with
  | answer v => exact ⟨_, rfl, .inl ⟨responseStatus_responseWord _ _, rfl⟩⟩
  | draw v => exact ⟨_, rfl, .inl ⟨responseStatus_responseWord _ _, rfl⟩⟩
  | store f x y c inside => exact ⟨_, rfl, .inl ⟨responseStatus_responseWord _ _, rfl⟩⟩
  | fill f x y w h c width height inside => exact ⟨_, rfl, .inl ⟨responseStatus_responseWord _ _, rfl⟩⟩
  | surface fmt stride len format => exact ⟨_, rfl, .inl ⟨responseStatus_responseWord _ _, rfl⟩⟩
  | glyph bpp width height offset len d depth => exact ⟨_, rfl, .inl ⟨responseStatus_responseWord _ _, rfl⟩⟩
  | fault c => exact ⟨_, rfl, .inr ⟨c, responseStatus_responseWord _ _, rfl⟩⟩
  | surfaceRefused => exact ⟨_, rfl, .inr ⟨.badFormat, responseStatus_responseWord _ _, rfl⟩⟩
  | glyphRefused => exact ⟨_, rfl, .inr ⟨.badBpp, responseStatus_responseWord _ _, rfl⟩⟩

/-- All a step can do to FAULT: keep it, record one cause, or, when the move is a reset, clear it. -/
theorem step_faultReg {s t : State} (h : step s = .next t) :
    t.faultReg = s.faultReg ∨ (∃ c, t.faultReg = recordFault s.faultReg c) ∨
      (t.faultReg = 0 ∧ ((∃ rest, s.inbox = .reset :: rest) ∨ ∃ w rest, s.inbox = .resetDuring w :: rest)) := by
  cases step_effect h with
  | idle inbox => exact .inl rfl
  | command w rest inbox effect =>
    obtain ⟨_, -, ⟨-, hkept⟩ | ⟨c, -, hrecorded⟩⟩ := effect.response
    · exact .inl hkept
    · exact .inr (.inl ⟨c, hrecorded⟩)
  | writePix offset b rest inbox => exact .inl rfl
  | writeGly offset b rest inbox => exact .inl rfl
  | reset rest inbox => exact .inr (.inr ⟨rfl, .inl ⟨rest, inbox⟩⟩)
  | resetDuring w rest inbox effect => exact .inr (.inr ⟨rfl, .inr ⟨w, rest, inbox⟩⟩)

/-- A command word sets the bit of its status, if that is not 0. -/
theorem step_command_faultReg {s t : State} {w : Word} {rest : List HostMove} (hin : s.inbox = .command w :: rest)
    (h : step s = .next t) :
    ∃ r, t.outbox = s.outbox ++ [r] ∧
      t.faultReg = if responseStatus r = 0 then s.faultReg
        else s.faultReg ||| (1#32 <<< (responseStatus r).toNat) := by
  rw [step_of_move hin] at h
  obtain ⟨r, hout, ⟨hstatus, hkept⟩ | ⟨c, hstatus, hrecorded⟩⟩ := (runWord_effect h).response
  · exact ⟨r, hout, by rw [if_pos hstatus, hkept]; rfl⟩
  · refine ⟨r, hout, ?_⟩
    rw [hstatus, if_neg c.code_ne_zero, hrecorded]
    rfl

/-- Every step but a reset keeps the bits of FAULT that are set. -/
theorem step_faultReg_sticky {s t : State} (h : step s = .next t) (hreset : ∀ rest, s.inbox ≠ .reset :: rest)
    (hduring : ∀ w rest, s.inbox ≠ .resetDuring w :: rest) : t.faultReg &&& s.faultReg = s.faultReg := by
  obtain hkept | ⟨c, hrecorded⟩ | ⟨-, ⟨rest, hin⟩ | ⟨w, rest, hin⟩⟩ := step_faultReg h
  · rw [hkept, BitVec.and_self]
  · rw [hrecorded, recordFault_and_self]
  · exact absurd hin (hreset rest)
  · exact absurd hin (hduring w rest)

/-- Every step keeps the unused bits of FAULT zero. -/
theorem step_faultReg_unused {s t : State} (hzero : s.faultReg &&& 0xFFFFFE01 = 0) (h : step s = .next t) :
    t.faultReg &&& 0xFFFFFE01 = 0 := by
  obtain hkept | ⟨c, hrecorded⟩ | ⟨hcleared, -⟩ := step_faultReg h
  · rw [hkept, hzero]
  · rw [hrecorded, recordFault_and_unused, hzero]
  · rw [hcleared]
    exact BitVec.zero_and

theorem step_reset_faultReg {s t : State} {rest : List HostMove} (hin : s.inbox = .reset :: rest)
    (h : step s = .next t) : t.faultReg = 0 := by
  rw [step_of_move hin] at h
  cases h
  rfl

/-- RDREG 9 answers FAULT: the register is never unspecified (40_config.md R85). -/
theorem rdreg_nine_answersOnly (s : State) : AnswersOnly (.rdreg 9) s s.faultReg := by
  obtain ⟨habove, -⟩ | ⟨-, hopen, -⟩ | ⟨-, -, hread⟩ := readRegister_cases 9 s
  · exact absurd habove (by decide)
  · cases hopen
  · exact congrArg Host.Outcome.next hread

/-- Settles O18: a command records its status (`step_command_faultReg`), and a step keeps FAULT, records one cause or
is a reset (`step_faultReg`). -/
theorem faultRegisterSticky : Obligations.FaultRegisterSticky :=
  ⟨fun _ _ _ _ hin h => step_command_faultReg hin h,
    fun _ _ h hreset hduring => step_faultReg_sticky h hreset hduring,
    fun _ _ hzero h => step_faultReg_unused hzero h,
    fun _ _ _ hin h => step_reset_faultReg hin h,
    rfl,
    rdreg_nine_answersOnly⟩

end Sys2Proof.Machine
end

section
/-! The smallest buffer of a surface (20_memory.md R49): it ends with the last byte of the bottom-right pixel, above
which no pixel of the surface lies (`placeOf_last_mono`). -/

namespace Sys2Proof.Machine

@[simp] theorem smallestLength_zero_stride (f : PixFormat) (rows : Nat) : smallestLength f 0 rows = 0 := by
  cases f <;> simp [smallestLength]

@[simp] theorem smallestLength_zero_rows (f : PixFormat) (stride : Nat) : smallestLength f stride 0 = 0 := by
  cases f <;> simp [smallestLength, ceilDiv]

/-- Only a surface that has a pixel needs a buffer. -/
theorem dims_pos_of_smallestLength_pos {f : PixFormat} {stride rows : Nat} (h : 0 < smallestLength f stride rows) :
    0 < stride ∧ 0 < rows :=
  ⟨Nat.pos_of_ne_zero fun hzero => by simp [hzero] at h, Nat.pos_of_ne_zero fun hzero => by simp [hzero] at h⟩

/-- The bottom-right pixel of a surface ends where its smallest buffer does. -/
theorem smallestLength_eq_last_add_one {f : PixFormat} {stride rows : Nat}
    (aligned : stride % formatGranularity f = 0) (hstride : 0 < stride) (hrows : 0 < rows) :
    smallestLength f stride rows = (placeOf f stride (stride - 1) (rows - 1)).last + 1 := by
  have pixels : stride - 1 + (rows - 1) * stride = stride * rows - 1 := by
    rw [Nat.sub_mul, Nat.one_mul, Nat.mul_comm rows]
    have := Nat.le_mul_of_pos_right stride hrows
    omega
  have whole : stride * rows % formatGranularity f = 0 :=
    Nat.mod_eq_zero_of_dvd ((Nat.dvd_of_mod_eq_zero aligned).mul_right rows)
  have nonempty : 0 < stride * rows := Nat.mul_pos hstride hrows
  cases f with
  | m1c =>
    have bands : ceilDiv rows 8 = (rows - 1) / 8 + 1 := by unfold ceilDiv; omega
    simp only [smallestLength, placeOf, placeM1C, Place.last, bands, Nat.succ_mul]
    omega
  | rgb565 =>
    simp only [smallestLength, placeOf, placeRGB565, Place.last, pixels, Nat.mul_assoc]
    omega
  | m1rm | m1rl | g2r | g4rm | g4rl | g8 =>
    simp only [smallestLength, placeOf, placeM1RM, placeM1RL, placeG2R, placeG4RM, placeG4RL, placeG8, Place.last,
      formatGranularity, pixels] at whole ⊢
    omega

/-- Settles O34: the bottom-right pixel ends at the last byte of the buffer (`smallestLength_eq_last_add_one`), and no
other pixel ends above it. -/
theorem smallestBuffer : Obligations.SmallestBuffer := by
  intro f stride rows aligned
  refine ⟨fun x y hx hy => ?_, fun len hlen => ?_⟩
  · have highest : (placeOf f stride x y).last ≤ (placeOf f stride (stride - 1) (rows - 1)).last :=
      placeOf_last_mono f stride (by omega) (by omega)
    rw [smallestLength_eq_last_add_one aligned (by omega) (by omega)]
    exact Nat.lt_succ_of_le highest
  · obtain ⟨hstride, hrows⟩ := dims_pos_of_smallestLength_pos (Nat.zero_lt_of_lt hlen)
    rw [smallestLength_eq_last_add_one aligned hstride hrows] at hlen
    exact ⟨stride - 1, rows - 1, by omega, by omega, Nat.le_of_lt_succ hlen⟩

end Sys2Proof.Machine
end

section
/-! The legal words (30_encoding.md R61, R65, R66): a word decodes exactly when it is the encoding of a command with a
legal register number, and the words of a mnemonic's commands are those its match and mask pick. -/

namespace Sys2Proof

/-! ## What decodes -/

/-- The register number of a RDREG is at most 9; no other command has such a bound (30_encoding.md R66 case 3). -/
def Command.RegisterLegal (c : Command) : Prop :=
  ∀ reg, c = .rdreg reg → RegisterNumber reg

/-- Read off the word, the register number is the `sel` field. -/
theorem Command.registerLegal_iff (c : Command) :
    c.RegisterLegal ↔ (c.mnemonic = .rdreg → ((encodeCommand c).extractLsb' 8 8).toNat ≤ 9) := by
  have hsel : (encodeCommand c).extractLsb' 8 8 = c.fields.sel :=
    congrArg CommandFields.sel (splitWord_encodeCommand c)
  rw [hsel]
  cases c with
  | rdreg reg => exact ⟨fun legal _ => legal reg rfl, fun bound _ e => Command.rdreg.inj e ▸ bound rfl⟩
  | _ => exact ⟨nofun, nofun⟩

/-- The fields of a command decode to it. -/
theorem decodeFields_fields {c : Command} (legal : c.RegisterLegal) : decodeFields c.fields = .ok c := by
  cases c with
  | rdreg reg => simp [decodeFields, Command.fields, show reg.toNat ≤ 9 from legal reg rfl]
  | _ => simp [decodeFields, Command.fields, acceptIf]

/-- Fields that decode are those of the command: the fields it leaves unused are the ones the decoder wants zero. -/
theorem fields_of_decodeFields {f : CommandFields} {c : Command} (h : decodeFields f = .ok c) :
    c.fields = f ∧ c.RegisterLegal := by
  obtain ⟨op, sel, col, x, y, w, height, ext⟩ := f
  unfold decodeFields at h
  split_ifs at h with hop hop hop hzero hreg hop hop hop hop hop hop <;>
    simp only [acceptIf_eq_ok, Bool.and_eq_true, beq_iff_eq, Except.ok.injEq] at h hop
  -- RDREG, the one format with a check after its zeros; then the other eight alike.
  pick_goal 3
  · subst h
    simp only [Bool.and_eq_true, beq_iff_eq] at hzero
    exact ⟨by simp [Command.fields, hop, hzero], fun _ e => Command.rdreg.inj e ▸ hreg⟩
  all_goals
    obtain ⟨hzero, rfl⟩ := h
    exact ⟨by simp [Command.fields, hop, hzero, setWidth_extractLow], nofun⟩

/-- A word decodes to the command it encodes, and to nothing else. -/
theorem decodeCommand_eq_ok_iff (w : Word) (c : Command) :
    decodeCommand w = .ok c ↔ encodeCommand c = w ∧ c.RegisterLegal := by
  constructor
  · intro h
    obtain ⟨hfields, legal⟩ := fields_of_decodeFields h
    exact ⟨word_eq_of_splitWord_eq ((splitWord_encodeCommand c).trans hfields), legal⟩
  · rintro ⟨rfl, legal⟩
    rw [decodeCommand, splitWord_encodeCommand, decodeFields_fields legal]

/-! ## Match and mask -/

/-- The fields of a mnemonic's mask: all ones in the opcode and in the fields its format does not use, and the high
byte of a field that it uses half (30_encoding.md R61). -/
def Mnemonic.maskFields (m : Mnemonic) : CommandFields :=
  let ones8 := BitVec.allOnes 8
  let ones := BitVec.allOnes 16
  let ones32 := BitVec.allOnes 32
  match m with
  | .cfgs => ⟨ones8, 0, ones, 0, ones, ones, ones, 0⟩
  | .cfgg => ⟨ones8, 0, ones, 0xFF00, 0xFF00, 0, 0, 0⟩
  | .rdreg => ⟨ones8, 0, ones, ones, ones, ones, ones, ones32⟩
  | .pset => ⟨ones8, ones8, 0, 0, 0, ones, ones, ones32⟩
  | .pget => ⟨ones8, ones8, ones, 0, 0, ones, ones, ones32⟩
  | .pfill => ⟨ones8, ones8, 0, 0, 0, 0, 0, ones32⟩
  | .gsize => ⟨ones8, ones8, ones, ones, ones, ones, ones, ones32⟩
  | .gsamp => ⟨ones8, ones8, ones, 0, 0, ones, ones, ones32⟩
  | .blend => ⟨ones8, 0, 0xFF00, 0, 0, ones, ones, ones32⟩

theorem splitWord_maskWord (m : Mnemonic) : splitWord m.maskWord = m.maskFields := by
  cases m <;> decide

/-- A match is an opcode and no other bit. -/
theorem splitWord_matchWord (m : Mnemonic) :
    splitWord m.matchWord = ⟨m.matchWord.extractLsb' 0 8, 0, 0, 0, 0, 0, 0, 0⟩ := by
  cases m <;> decide

/-- A 16-bit field with no bit in its high byte is its widened low byte. -/
theorem setWidth_extractLow_of_and {v : BitVec 16} (h : v &&& 0xFF00#16 = 0) :
    (v.extractLsb' 0 8).setWidth 16 = v := by
  apply setWidth_extractLow
  have hmask : (0xFF00#16).extractLsb' 8 8 = BitVec.allOnes 8 := by decide
  calc v.extractLsb' 8 8 = v.extractLsb' 8 8 &&& (0xFF00#16).extractLsb' 8 8 := by rw [hmask, BitVec.and_allOnes]
    _ = (v &&& 0xFF00#16).extractLsb' 8 8 := BitVec.extractLsb'_and.symm
    _ = 0 := by rw [h]; rfl

/-- A word that meets a match and mask is the word of a command of that mnemonic: the converse of `encodeCommand_row`. -/
theorem exists_command_of_row {w : Word} {m : Mnemonic} (row : w &&& m.maskWord = m.matchWord) :
    ∃ c, encodeCommand c = w ∧ c.mnemonic = m := by
  suffices ∃ c : Command, c.fields = splitWord w ∧ c.mnemonic = m by
    obtain ⟨c, hfields, hm⟩ := this
    exact ⟨c, word_eq_of_splitWord_eq ((splitWord_encodeCommand c).trans hfields), hm⟩
  have hmasked := congrArg splitWord row
  rw [splitWord_and, splitWord_maskWord, splitWord_matchWord] at hmasked
  generalize splitWord w = f at hmasked
  obtain ⟨op, sel, col, x, y, width, height, ext⟩ := f
  cases m <;> simp only [Mnemonic.maskFields, BitVec.and_allOnes, CommandFields.mk.injEq] at hmasked
  case cfgs =>
    obtain ⟨rfl, -, rfl, -, rfl, rfl, rfl, -⟩ := hmasked
    exact ⟨.cfgs sel x ext, rfl, rfl⟩
  case cfgg =>
    obtain ⟨rfl, -, rfl, hx, hy, -, -, -⟩ := hmasked
    refine ⟨.cfgg sel (x.extractLsb' 0 8) (y.extractLsb' 0 8) (height ++ width) ext, ?_, rfl⟩
    simp [Command.fields, Mnemonic.matchWord, setWidth_extractLow_of_and hx, setWidth_extractLow_of_and hy]
  case rdreg =>
    obtain ⟨rfl, -, rfl, rfl, rfl, rfl, rfl, rfl⟩ := hmasked
    exact ⟨.rdreg sel, rfl, rfl⟩
  case pset =>
    obtain ⟨rfl, rfl, -, -, -, rfl, rfl, rfl⟩ := hmasked
    exact ⟨.pset x y col, rfl, rfl⟩
  case pget =>
    obtain ⟨rfl, rfl, rfl, -, -, rfl, rfl, rfl⟩ := hmasked
    exact ⟨.pget x y, rfl, rfl⟩
  case pfill =>
    obtain ⟨rfl, rfl, -, -, -, -, -, rfl⟩ := hmasked
    exact ⟨.pfill x y width height col, rfl, rfl⟩
  case gsize =>
    obtain ⟨rfl, rfl, rfl, rfl, rfl, rfl, rfl, rfl⟩ := hmasked
    exact ⟨.gsize, rfl, rfl⟩
  case gsamp =>
    obtain ⟨rfl, rfl, rfl, -, -, rfl, rfl, rfl⟩ := hmasked
    exact ⟨.gsamp x y, rfl, rfl⟩
  case blend =>
    obtain ⟨rfl, -, hcol, -, -, rfl, rfl, rfl⟩ := hmasked
    refine ⟨.blend sel (col.extractLsb' 0 8) x y, ?_, rfl⟩
    simp [Command.fields, Mnemonic.matchWord, setWidth_extractLow_of_and hcol]

/-- Settles O3: what decodes is the encoding of a command, whose mnemonic's match and mask it meets
(`encodeCommand_row`), and every word that meets them is one (`exists_command_of_row`). -/
theorem matchAndMaskDecide : Obligations.MatchAndMaskDecide := by
  intro w m
  constructor
  · rintro ⟨c, hdecode, rfl⟩
    obtain ⟨rfl, legal⟩ := (decodeCommand_eq_ok_iff w c).mp hdecode
    exact ⟨Laws.encodeCommand_row c, c.registerLegal_iff.mp legal⟩
  · rintro ⟨row, bound⟩
    obtain ⟨c, rfl, rfl⟩ := exists_command_of_row row
    exact ⟨c, (decodeCommand_eq_ok_iff _ c).mpr ⟨rfl, c.registerLegal_iff.mpr bound⟩, rfl⟩

end Sys2Proof
end

section
/-! Illegal words (30_encoding.md R66): they are the words that do not decode, and ILLEGAL_CMD is reported for no
other, because the checks of a legal command report only the other causes that R181 lists for it. -/

namespace Sys2Proof.Machine

/-! ## Illegal words -/

/-- No two mnemonics share an opcode (30_encoding.md R63). -/
theorem HasOpcode.unique {w : Word} {m n : Mnemonic} (hm : HasOpcode w m) (hn : HasOpcode w n) : m = n := by
  have hop : m.matchWord.extractLsb' 0 8 = n.matchWord.extractLsb' 0 8 := hm.symm.trans hn
  clear hm hn
  revert hop
  cases m <;> cases n <;> decide

/-- Every mask covers the opcode. -/
theorem hasOpcode_of_row {w : Word} {m : Mnemonic} (row : w &&& m.maskWord = m.matchWord) : HasOpcode w m := by
  have hmask : m.maskWord.extractLsb' 0 8 = BitVec.allOnes 8 := by cases m <;> decide
  calc w.extractLsb' 0 8 = w.extractLsb' 0 8 &&& m.maskWord.extractLsb' 0 8 := by rw [hmask, BitVec.and_allOnes]
    _ = (w &&& m.maskWord).extractLsb' 0 8 := BitVec.extractLsb'_and.symm
    _ = m.matchWord.extractLsb' 0 8 := by rw [row]

/-- The three cases of R66 leave exactly the words that decode. -/
theorem not_illegalWord_iff (w : Word) : ¬ IllegalWord w ↔ ∃ c, decodeCommand w = .ok c := by
  constructor
  · intro hlegal
    obtain ⟨m, hop⟩ : ∃ m, HasOpcode w m := by
      by_contra hnone
      exact hlegal (.inl fun m hop => hnone ⟨m, hop⟩)
    have row : w &&& m.maskWord = m.matchWord := by
      by_contra hrow
      exact hlegal (.inr (.inl ⟨m, hop, hrow⟩))
    have bound : m = .rdreg → (w.extractLsb' 8 8).toNat ≤ 9 := by
      rintro rfl
      by_contra habove
      exact hlegal (.inr (.inr ⟨hop, Nat.lt_of_not_le habove⟩))
    obtain ⟨c, hdecode, -⟩ := (matchAndMaskDecide w m).mpr ⟨row, bound⟩
    exact ⟨c, hdecode⟩
  · rintro ⟨c, hdecode⟩
    obtain ⟨row, bound⟩ := (matchAndMaskDecide w c.mnemonic).mp ⟨c, hdecode, rfl⟩
    have hop : HasOpcode w c.mnemonic := hasOpcode_of_row row
    rintro (hnone | ⟨m, hm, hrow⟩ | ⟨hrdreg, habove⟩)
    · exact hnone c.mnemonic hop
    · exact hrow (hm.unique hop ▸ row)
    · exact absurd (bound (hop.unique hrdreg)) (Nat.not_le_of_lt habove)

/-- An illegal word raises ILLEGAL_CMD. -/
theorem runWord_of_illegalWord {w : Word} (h : IllegalWord w) (s : State) :
    runWord w s = .next (s.raise .illegalCmd) := by
  obtain ⟨_, -, e⟩ | hlegal := runWord_commands w s
  · exact e
  · refine absurd h ((not_illegalWord_iff w).mpr ?_)
    cases hdecode : decodeCommand w with
    | ok c => exact ⟨c, rfl⟩
    | error r => simp [hdecode] at hlegal

/-! ## What a legal word reports -/

/-- A legal command's response: a value, or a cause that R181 lists for the mnemonic other than ILLEGAL_CMD. -/
inductive Reports (m : Mnemonic) (s t : State) : Prop where
  | answer (value : BitVec 32) (response : t.outbox = s.outbox ++ [responseWord 0 value])
  | fault (cause : Cause) (listed : cause ∈ mayRaise m) (legal : cause ≠ .illegalCmd)
      (response : t.outbox = s.outbox ++ [responseWord cause.code 0])

theorem configureSurface_reports (fmt : BitVec 8) (stride : BitVec 16) (len : BitVec 32) (s : State) :
    Reports .cfgs s (configureSurface fmt stride len s) := by
  obtain ⟨-, h⟩ | ⟨-, h⟩ := configureSurface_cases fmt stride len s <;> rw [h]
  · exact .fault .badFormat (by decide) (by decide) rfl
  · exact .answer _ rfl

theorem configureGlyph_reports (bpp width height : BitVec 8) (offset len : BitVec 32) (s : State) :
    Reports .cfgg s (configureGlyph bpp width height offset len s) := by
  obtain ⟨-, h⟩ | ⟨_, -, h⟩ := configureGlyph_cases bpp width height offset len s <;> rw [h]
  · exact .fault .badBpp (by decide) (by decide) rfl
  · exact .answer _ rfl

/-- The register number is what a decoded RDREG has to be legal for (30_encoding.md R66 case 3). -/
theorem readRegister_reports {reg : BitVec 8} (hreg : RegisterNumber reg) (s : State) :
    Reports .rdreg s (readRegister reg s) := by
  obtain ⟨habove, -⟩ | ⟨-, -, h⟩ | ⟨-, -, h⟩ := readRegister_cases reg s
  · exact absurd hreg (Nat.not_le_of_lt habove)
  · rw [h]; exact .answer _ rfl
  · rw [h]; exact .answer _ rfl

theorem setPixel_reports (place : Place) (c : Colour) (s : State) : Reports .pset s (setPixel place c s) := by
  obtain ⟨-, h⟩ | ⟨-, -, h⟩ | ⟨-, -, h⟩ := setPixel_cases place c s <;> rw [h]
  · exact .fault .notConfigured (by decide) (by decide) rfl
  · exact .fault .pixAddr (by decide) (by decide) rfl
  · exact .answer _ rfl

theorem getPixel_reports (place : Place) (s : State) : Reports .pget s (getPixel place s) := by
  obtain ⟨-, h⟩ | ⟨-, -, h⟩ | ⟨-, -, h⟩ := getPixel_cases place s <;> rw [h]
  · exact .fault .notConfigured (by decide) (by decide) rfl
  · exact .fault .pixAddr (by decide) (by decide) rfl
  · exact .answer _ rfl

theorem fillRectangle_reports (place : Nat → Nat → Place) (x y w h : BitVec 16) (c : Colour) (s : State) :
    Reports .pfill s (fillRectangle place x y w h c s) := by
  obtain ⟨-, e⟩ | ⟨-, -, e⟩ | ⟨-, -, -, -, e⟩ | ⟨-, -, -, -, e⟩ := fillRectangle_cases place x y w h c s <;> rw [e]
  · exact .fault .notConfigured (by decide) (by decide) rfl
  · exact .answer _ rfl
  · exact .fault .pixAddr (by decide) (by decide) rfl
  · exact .answer _ rfl

theorem glyphSize_reports (d : Depth) (s : State) : Reports .gsize s (glyphSize d s) := by
  obtain ⟨-, h⟩ | ⟨-, h⟩ := glyphSize_cases d s <;> rw [h]
  · exact .fault .notConfigured (by decide) (by decide) rfl
  · exact .answer _ rfl

theorem sampleGlyph_reports (d : Depth) (x y : BitVec 16) (s : State) : Reports .gsamp s (sampleGlyph d x y s) := by
  obtain ⟨-, h⟩ | ⟨-, -, h⟩ | ⟨-, -, -, -, h⟩ | ⟨-, -, -, -, h⟩ := sampleGlyph_cases d x y s <;> rw [h]
  · exact .fault .notConfigured (by decide) (by decide) rfl
  · exact .fault .glyRange (by decide) (by decide) rfl
  · exact .fault .glyAddr (by decide) (by decide) rfl
  · exact .answer _ rfl

theorem blendColours_reports (blend : Nat → Nat → Colour → Colour → Colour) (bpp a : BitVec 8) (fg bg : Colour)
    (s : State) : Reports .blend s (blendColours blend bpp a fg bg s) := by
  obtain ⟨-, h⟩ | ⟨_, -, -, h⟩ | ⟨_, -, -, -, h⟩ | ⟨_, -, -, -, h⟩ := blendColours_cases blend bpp a fg bg s <;>
    rw [h]
  · exact .fault .badBpp (by decide) (by decide) rfl
  · exact .fault .notConfigured (by decide) (by decide) rfl
  · exact .fault .covRange (by decide) (by decide) rfl
  · exact .answer _ rfl

/-- A word that decodes reports as its mnemonic does. -/
theorem runWord_reports {s t : State} {w : Word} {c : Command} (hdecode : decodeCommand w = .ok c)
    (h : runWord w s = .next t) : Reports c.mnemonic s t := by
  obtain ⟨-, legal⟩ := (decodeCommand_eq_ok_iff w c).mp hdecode
  obtain ⟨_, hd, e⟩ | ⟨fmt, stride, len, hd, e⟩ | ⟨bpp, width, height, offset, len, hd, e⟩ | ⟨reg, hd, e⟩ |
    ⟨x, y, col, hd, e⟩ | ⟨x, y, hd, e⟩ | ⟨x, y, width, height, col, hd, e⟩ | ⟨hd, d, -, e⟩ | ⟨x, y, hd, d, -, e⟩ |
    ⟨hd | ⟨x, y, hd⟩, -, -, e⟩ | ⟨hd | ⟨x, y, hd⟩, -, -, e⟩ | ⟨bpp, a, fg, bg, hd, e⟩ := runWord_commands w s <;>
    cases hd.symm.trans hdecode <;> cases e.symm.trans h
  · exact configureSurface_reports fmt stride len s
  · exact configureGlyph_reports bpp width height offset len s
  · exact readRegister_reports (legal reg rfl) s
  · exact setPixel_reports _ col s
  · exact getPixel_reports _ s
  · exact fillRectangle_reports _ x y width height col s
  · exact glyphSize_reports d s
  · exact sampleGlyph_reports d x y s
  · exact .fault (m := .gsize) .notConfigured (by decide) (by decide) rfl
  · exact .fault (m := .gsamp) .notConfigured (by decide) (by decide) rfl
  · exact blendColours_reports _ bpp a fg bg s

/-- A command that reports a value or another cause does not report ILLEGAL_CMD. -/
theorem Reports.status_ne_illegalCmd {m : Mnemonic} {s t : State} {r : Response} (reports : Reports m s t)
    (h : t.outbox = s.outbox ++ [r]) : responseStatus r ≠ Cause.illegalCmd.code := by
  cases reports with
  | answer value response =>
    rw [response_eq_of_append_eq (h.symm.trans response), responseStatus_responseWord]
    decide
  | fault cause _ legal response =>
    rw [response_eq_of_append_eq (h.symm.trans response), responseStatus_responseWord]
    exact fun hcode => legal (Cause.code_injective hcode)

/-- Settles O4: an illegal word raises ILLEGAL_CMD (`runWord_of_illegalWord`), and a word that decodes reports another
status (`runWord_reports`). -/
theorem illegalWordsOnlyFault : Obligations.IllegalWordsOnlyFault := by
  intro s w rest hin
  have hstep : step s = runWord w (s.setInbox rest) := step_of_move hin
  constructor
  · intro hillegal
    rw [hstep, runWord_of_illegalWord hillegal]
    rfl
  · intro hfault
    by_contra hlegal
    obtain ⟨c, hdecode⟩ := (not_illegalWord_iff w).mp hlegal
    have reports := runWord_reports hdecode (hstep.symm.trans hfault)
    exact reports.status_ne_illegalCmd rfl (responseStatus_responseWord 1 0)

end Sys2Proof.Machine
end

section
/-! CFGS, CFGG and RDREG (40_config.md R80 to R85): each result is read off the cases of the shared operation
(`configureSurface_cases`, `configureGlyph_cases`, `readRegister_cases`); the row of bytes of R82 comes from a stride
that is whole bytes. -/

namespace Sys2Proof.Machine

/-! ## CFGS (R80, R82) -/

/-- A format code of CFGS fits PF_FORMAT (10_state.md R13). -/
theorem acceptedFormat_toNat {fmt : BitVec 8} (h : fmt.toNat ≤ 7) : (fmt.setWidth 3).toNat = fmt.toNat := by
  rw [BitVec.toNat_setWidth, Nat.mod_eq_of_lt (by omega)]

/-- The granularities of R80, listed by format code. -/
theorem granularities_getElem? (code : BitVec 3) :
    [8, 8, 8, 1, 4, 2, 2, 1][code.toNat]? = some (formatGranularity (PixFormat.ofCode code)) := by
  revert code
  decide

/-- A CFGS that names a format loads the surface context. -/
theorem exec_cfgs_of_format {fmt : BitVec 8} (h : fmt.toNat ≤ 7) (stride : BitVec 16) (len : BitVec 32) (s : State) :
    exec (.cfgs fmt stride len) s = .next ((s.setSurface (fmt.setWidth 3)
      (BitVec.ofNat 17 (roundUp stride.toNat (formatGranularity (PixFormat.ofCode (fmt.setWidth 3))))) len).respond 0) := by
  obtain ⟨habove, -⟩ | ⟨-, hload⟩ := configureSurface_cases fmt stride len s
  · omega
  · exact congrArg Host.Outcome.next hload

/-- A CFGS that names no format raises BAD_FORMAT and clears PF_VALID. -/
theorem exec_cfgs_of_noFormat {fmt : BitVec 8} (h : 7 < fmt.toNat) (stride : BitVec 16) (len : BitVec 32) (s : State) :
    exec (.cfgs fmt stride len) s = .next (s.invalidateSurface.raise .badFormat) := by
  obtain ⟨-, hrefuse⟩ | ⟨hbelow, -⟩ := configureSurface_cases fmt stride len s
  · exact congrArg Host.Outcome.next hrefuse
  · omega

/-- Settles O20: the context loaded is that of `exec_cfgs_of_format`, and 17 bits hold the rounded stride. -/
theorem cfgsConfigures : Obligations.CfgsConfigures := by
  intro fmt stride len s
  refine ⟨fun hformat => ⟨_, exec_cfgs_of_format hformat stride len s, acceptedFormat_toNat hformat, fun g hg => ?_⟩,
    fun habove => exec_cfgs_of_noFormat habove stride len s⟩
  rw [← acceptedFormat_toNat hformat, granularities_getElem?] at hg
  cases hg
  exact roundedStride_toNat _ stride

/-- In a row-major format the pixels run through the bytes in order, `ppb` to a byte (41_pixel_set_get.md R91 to R98). -/
theorem placeOf_first_of_rowMajor {f : PixFormat} {ppb : Nat} (hrow : f ≠ .m1c) (h : formatPixelsPerByte f = some ppb)
    (stride x y : Nat) : (placeOf f stride x y).first = (x + y * stride) / ppb := by
  cases f with
  | m1c => exact absurd rfl hrow
  | rgb565 => cases h
  | g8 => cases h; exact (Nat.div_one _).symm
  | m1rm | m1rl | g2r | g4rm | g4rl => cases h; rfl

theorem pixelsPerByte_pos {f : PixFormat} {ppb : Nat} (h : formatPixelsPerByte f = some ppb) : 0 < ppb := by
  cases f <;> cases h <;> decide

/-- Rows of whole bytes: with an aligned stride, the bytes of row `y` are the `stride / ppb` bytes from
`y * (stride / ppb)` on. -/
theorem exists_pixel_of_byte_iff {stride ppb : Nat} (hpos : 0 < ppb) (aligned : stride % ppb = 0) (y a : Nat) :
    (∃ x, x < stride ∧ (x + y * stride) / ppb = a) ↔
      (y * (stride / ppb) ≤ a ∧ a < (y + 1) * (stride / ppb)) := by
  obtain ⟨k, rfl⟩ := Nat.dvd_of_mod_eq_zero aligned
  have rowByte (x : Nat) : (x + y * (ppb * k)) / ppb = x / ppb + y * k := by
    rw [Nat.mul_left_comm, Nat.add_mul_div_left _ _ hpos]
  rw [Nat.mul_div_cancel_left k hpos, Nat.succ_mul]
  constructor
  · rintro ⟨x, hx, rfl⟩
    have hinside : x / ppb < k := Nat.div_lt_of_lt_mul hx
    rw [rowByte]
    exact ⟨Nat.le_add_left _ _, (Nat.add_comm _ _).trans_lt (Nat.add_lt_add_left hinside _)⟩
  · rintro ⟨hlow, hhigh⟩
    refine ⟨ppb * (a - y * k), Nat.mul_lt_mul_of_pos_left (by omega) hpos, ?_⟩
    rw [rowByte, Nat.mul_div_cancel_left _ hpos]
    omega

/-- Settles O21: the stride is rounded to a granule (`roundUp_granularity`), which is a byte's worth of pixels, so that
the rows are whole bytes (`exists_pixel_of_byte_iff`). -/
theorem cfgsStrideRounding : Obligations.CfgsStrideRounding := by
  intro fmt stride len s t hformat h
  rw [exec_cfgs_of_format hformat] at h
  cases h
  simp only [State.respond_pfStride, State.setSurface_pfStride, State.respond_pfFormat, State.setSurface_pfFormat,
    roundedStride_toNat]
  obtain ⟨aligned, hle, hlt, -⟩ := roundUp_granularity (PixFormat.ofCode (fmt.setWidth 3)) stride.isLt
  refine ⟨hle, hlt, aligned, fun ppb hrow _ hppb y a => ?_⟩
  simp only [placeOf_first_of_rowMajor hrow hppb]
  exact exists_pixel_of_byte_iff (pixelsPerByte_pos hppb)
    (formatGranularity_eq_pixelsPerByte hppb ▸ aligned) y a

/-! ## CFGG (R83, R84) -/

/-- A CFGG that names a depth loads the glyph context. -/
theorem exec_cfgg_of_depth {bpp : BitVec 8} (h : bpp.toNat = 1 ∨ bpp.toNat = 2 ∨ bpp.toNat = 4 ∨ bpp.toNat = 8)
    (width height : BitVec 8) (offset len : BitVec 32) (s : State) :
    exec (.cfgg bpp width height offset len) s =
      .next ((s.setGlyph (bpp.setWidth 4) width height offset len).respond 0) := by
  obtain ⟨hnone, -⟩ | ⟨_, -, hload⟩ := configureGlyph_cases bpp width height offset len s
  · exact absurd h ((ofBits_eq_none_iff _).mp hnone)
  · exact congrArg Host.Outcome.next hload

/-- A CFGG that names no depth raises BAD_BPP and clears G_VALID. -/
theorem exec_cfgg_of_noDepth {bpp : BitVec 8} (h : ¬ (bpp.toNat = 1 ∨ bpp.toNat = 2 ∨ bpp.toNat = 4 ∨ bpp.toNat = 8))
    (width height : BitVec 8) (offset len : BitVec 32) (s : State) :
    exec (.cfgg bpp width height offset len) s = .next (s.invalidateGlyph.raise .badBpp) := by
  obtain ⟨-, hrefuse⟩ | ⟨d, hd, -⟩ := configureGlyph_cases bpp width height offset len s
  · exact congrArg Host.Outcome.next hrefuse
  · rw [(ofBits_eq_none_iff _).mpr h] at hd
    cases hd

/-- Settles O23, by the two cases of the depth: `exec_cfgg_of_depth` and `exec_cfgg_of_noDepth`. -/
theorem cfggConfigures : Obligations.CfggConfigures := by
  intro bpp width height offset len s
  refine ⟨fun hdepth => ⟨bpp.setWidth 4, ?_, exec_cfgg_of_depth hdepth width height offset len s⟩,
    fun hnone => exec_cfgg_of_noDepth hnone width height offset len s⟩
  rw [BitVec.toNat_setWidth, Nat.mod_eq_of_lt (by omega)]

/-- The instructions of mnemonic GSIZE are its four variants. -/
theorem exists_gsizeVariant {i : Instr} (h : i.command.mnemonic = .gsize) : ∃ d, i = gsizeVariant d := by
  cases i with
  | gsize1 => exact ⟨.d1, rfl⟩
  | gsize2 => exact ⟨.d2, rfl⟩
  | gsize4 => exact ⟨.d4, rfl⟩
  | gsize8 => exact ⟨.d8, rfl⟩
  | _ => cases h

/-- The instructions of mnemonic GSAMP are its four variants. -/
theorem exists_gsampVariant {i : Instr} (h : i.command.mnemonic = .gsamp) : ∃ d x y, i = gsampVariant d x y := by
  cases i with
  | gsamp1 x y => exact ⟨.d1, x, y, rfl⟩
  | gsamp2 x y => exact ⟨.d2, x, y, rfl⟩
  | gsamp4 x y => exact ⟨.d4, x, y, rfl⟩
  | gsamp8 x y => exact ⟨.d8, x, y, rfl⟩
  | _ => cases h

/-- A fault as the statements say it is `State.raise`. -/
theorem faults_iff {i : Instr} {s : State} {c : Cause} : Faults i s c ↔ exec i s = .next (s.raise c) :=
  Iff.rfl

/-- Without a glyph every GSIZE faults (43_glyph_sampler.md R142). -/
theorem gsizeVariant_faults {s : State} (hvalid : s.gValid = false) (d : Depth) :
    Faults (gsizeVariant d) s .notConfigured := by
  rw [faults_iff, exec_gsizeVariant]
  obtain ⟨-, h⟩ | ⟨hset, -⟩ := glyphSize_cases d s
  · rw [h]
  · simp [hvalid] at hset

/-- Without a glyph every GSAMP faults, wherever it samples (43_glyph_sampler.md R147). -/
theorem gsampVariant_faults {s : State} (hvalid : s.gValid = false) (d : Depth) (x y : BitVec 16) :
    Faults (gsampVariant d x y) s .notConfigured := by
  rw [faults_iff, exec_gsampVariant]
  obtain ⟨-, h⟩ | ⟨hset, -⟩ | ⟨hset, -⟩ | ⟨hset, -⟩ := sampleGlyph_cases d x y s
  · rw [h]
  all_goals simp [hvalid] at hset

/-- Settles O24: the refused CFGG is `exec_cfgg_of_noDepth`, and G_VALID gates all eight variants. -/
theorem cfggUnknownDepth : Obligations.CfggUnknownDepth := by
  refine ⟨fun bpp width height offset len s hnone => exec_cfgg_of_noDepth hnone width height offset len s,
    fun i s hvalid hglyph => ?_⟩
  obtain hsize | hsamp := hglyph
  · obtain ⟨d, rfl⟩ := exists_gsizeVariant hsize
    exact gsizeVariant_faults hvalid d
  · obtain ⟨d, x, y, rfl⟩ := exists_gsampVariant hsamp
    exact gsampVariant_faults hvalid d x y

/-! ## RDREG (R85) -/

theorem registerOpen_surface {n : Nat} (h : n ≤ 2) (s : State) : registerOpen n s = !s.pfWritten :=
  if_pos h

theorem registerOpen_glyph {n : Nat} (hlow : 3 ≤ n) (hhigh : n ≤ 7) (s : State) : registerOpen n s = !s.gWritten := by
  rw [registerOpen, if_neg (by omega), if_pos hhigh]

theorem registerOpen_status {n : Nat} (h : 8 ≤ n) (s : State) : registerOpen n s = false := by
  rw [registerOpen, if_neg (by omega), if_neg (by omega)]

/-- RDREG of a register that is not unspecified answers its value. -/
theorem rdreg_answersOnly {reg : BitVec 8} {s : State} (hreg : reg.toNat ≤ 9)
    (hopen : registerOpen reg.toNat s = false) : AnswersOnly (.rdreg reg) s (registerValue reg.toNat s) := by
  obtain ⟨habove, -⟩ | ⟨-, hset, -⟩ | ⟨-, -, hread⟩ := readRegister_cases reg s
  · omega
  · simp [hopen] at hset
  · exact congrArg Host.Outcome.next hread

theorem rdreg_answersOnly_surface {s : State} (hs : s.pfWritten = true) (reg : BitVec 8) (h : reg.toNat ≤ 2) :
    AnswersOnly (.rdreg reg) s (registerValue reg.toNat s) :=
  rdreg_answersOnly (by omega) (by rw [registerOpen_surface h, hs]; rfl)

theorem rdreg_answersOnly_glyph {s : State} (hs : s.gWritten = true) (reg : BitVec 8) (hlow : 3 ≤ reg.toNat)
    (hhigh : reg.toNat ≤ 7) : AnswersOnly (.rdreg reg) s (registerValue reg.toNat s) :=
  rdreg_answersOnly (by omega) (by rw [registerOpen_glyph hlow hhigh, hs]; rfl)

/-- RDREG of an unspecified register answers a free draw (10_state.md R28). -/
theorem exec_rdreg_of_open {reg : BitVec 8} {s : State} (hreg : reg.toNat ≤ 9)
    (hopen : registerOpen reg.toNat s = true) :
    exec (.rdreg reg) s = .next (s.countDraw.respond (drawnValue reg.toNat s)) := by
  obtain ⟨habove, -⟩ | ⟨-, -, hdraw⟩ | ⟨-, hclear, -⟩ := readRegister_cases reg s
  · omega
  · exact congrArg Host.Outcome.next hdraw
  · simp [hopen] at hclear

/-- RDREG above register 9 is illegal. -/
theorem rdreg_faults {reg : BitVec 8} (h : 9 < reg.toNat) (s : State) : Faults (.rdreg reg) s .illegalCmd := by
  obtain ⟨-, hraise⟩ | ⟨hbelow, -⟩ | ⟨hbelow, -⟩ := readRegister_cases reg s
  · exact congrArg Host.Outcome.next hraise
  all_goals omega

/-- A free draw is a value of the register's width. -/
theorem drawnValue_lt (n : Nat) (s : State) : (drawnValue n s).toNat < 2 ^ registerWidth n := by
  rw [drawnValue, BitVec.toNat_setWidth]
  exact (Nat.mod_le _ _).trans_lt (BitVec.isLt _)

/-- The widths of the eight context registers (10_state.md R29). -/
theorem registerWidth_of_getElem? {n width : Nat} (h : [3, 17, 32, 4, 8, 8, 32, 32][n]? = some width) :
    n ≤ 7 ∧ registerWidth n = width := by
  obtain ⟨hn, rfl⟩ := List.getElem?_eq_some_iff.mp h
  have hn : n < 8 := hn
  refine ⟨by omega, ?_⟩
  interval_cases n <;> rfl

/-- Settles O25: the registers of a context once loaded answer their values (`rdreg_answersOnly_surface`,
`rdreg_answersOnly_glyph`), and before that a draw of their width (`drawnValue_lt`). -/
theorem rdregAnswers : Obligations.RdregAnswers := by
  refine ⟨fun s hs => ?_, fun s hs => ?_, fun s => ?_, fun s reg habove => rdreg_faults habove s,
    fun s reg width hwidth hsurface hglyph => ?_⟩
  · exact ⟨rdreg_answersOnly_surface hs 0 (by decide), rdreg_answersOnly_surface hs 1 (by decide),
      rdreg_answersOnly_surface hs 2 (by decide)⟩
  · exact ⟨rdreg_answersOnly_glyph hs 3 (by decide) (by decide), rdreg_answersOnly_glyph hs 4 (by decide) (by decide),
      rdreg_answersOnly_glyph hs 5 (by decide) (by decide), rdreg_answersOnly_glyph hs 6 (by decide) (by decide),
      rdreg_answersOnly_glyph hs 7 (by decide) (by decide)⟩
  · exact ⟨rdreg_answersOnly (reg := 8) (by decide) (registerOpen_status (by decide) s), rdreg_nine_answersOnly s⟩
  · obtain ⟨hcontext, rfl⟩ := registerWidth_of_getElem? hwidth
    have hopen : registerOpen reg.toNat s = true := by
      by_cases h : reg.toNat ≤ 2
      · rw [registerOpen_surface h, hsurface h]; rfl
      · rw [registerOpen_glyph (by omega) hcontext, hglyph (by omega)]; rfl
    exact ⟨_, _, drawnValue_lt reg.toNat s, exec_rdreg_of_open (by omega) hopen⟩

end Sys2Proof.Machine
end

section
/-! PSET and PGET (41_pixel_set_get.md R99 to R118): what each does with the pixel at its place, what a load finds after
a store to the same place and to another one, and the place as a function of the linear index in the row-major
formats. -/

namespace Sys2Proof.Machine

/-! ## Storing to and loading from a packed place (R90) -/

/-- A store to a packed place changes the bits of its field and no others, whole bytes included (R99). -/
theorem Place.getLsbD_store_bits {shift n : Nat} (hfit : shift + n ≤ 8) (byte : Nat) (big : Bool) (m : Memory)
    (c : Colour) {k : Nat} (hk : k < 8) :
    (((Place.bits byte shift (2 ^ n - 1)).store big m c).read byte).getLsbD k =
      if shift ≤ k ∧ k < shift + n then c.getLsbD (k - shift) else (m.read byte).getLsbD k := by
  rw [Place.read_store_bits]
  split
  case isTrue hbyte =>
    have hn : n = 8 := by
      have hpos := Nat.two_pow_pos n
      exact Nat.pow_right_injective (le_refl 2) (show 2 ^ n = 2 ^ 8 by omega)
    obtain rfl : shift = 0 := by omega
    simp [hk, hn]
  case isFalse => exact getLsbD_putBits _ _ _ _ hk

/-- A load from a packed place is a shift and a mask (R108). -/
theorem Place.toNat_load_bits (byte shift : Nat) {fmask : Nat} (hmask : fmask < 256) (big : Bool) (m : Memory) :
    ((Place.bits byte shift fmask).load big m).toNat = ((m.read byte).toNat >>> shift) &&& fmask := by
  have hfield : (takeBits (m.read byte) shift fmask).toNat = ((m.read byte).toNat >>> shift) &&& fmask := by
    rw [takeBits, BitVec.toNat_and, BitVec.toNat_ushiftRight, BitVec.toNat_ofNat, Nat.mod_eq_of_lt hmask]
  rw [Place.load, BitVec.toNat_setWidth, hfield, Nat.mod_eq_of_lt]
  exact Nat.and_le_right.trans_lt (by omega)

/-- A load from a cell puts the high byte of the platform's order first (R112, 20_memory.md R44). -/
theorem Place.toNat_load_cell (first : Nat) (big : Bool) (m : Memory) :
    ((Place.cell first).load big m).toNat =
      if big then (m.read first).toNat * 256 + (m.read (first + 1)).toNat
      else (m.read (first + 1)).toNat * 256 + (m.read first).toNat := by
  have happend (hi lo : Byte) : (hi ++ lo : Colour).toNat = hi.toNat * 256 + lo.toNat := by
    rw [BitVec.toNat_append, ← Nat.shiftLeft_add_eq_or_of_lt lo.isLt, Nat.shiftLeft_eq]
  rw [Place.load, BitVec.toNat_setWidth_of_le (by decide), cellValue]
  split <;> exact happend _ _

/-- The bits a load from a packed place finds. -/
theorem Place.getLsbD_load_bits {shift n : Nat} (hfit : shift + n ≤ 8) (byte : Nat) (big : Bool) (m : Memory)
    (k : Nat) :
    ((Place.bits byte shift (2 ^ n - 1)).load big m).getLsbD k =
      (decide (k < n) && (m.read byte).getLsbD (shift + k)) := by
  rw [Place.load, BitVec.getLsbD_setWidth]
  by_cases hk : k < 8
  · rw [getLsbD_takeBits _ _ _ hk, decide_eq_true (by omega : k < 32), Bool.true_and]
  · rw [BitVec.getLsbD_of_ge _ _ (by omega), decide_eq_false (by omega : ¬ k < n), Bool.false_and, Bool.and_false]

/-- A field is read back as it was stored, masked: `take(put(old, s, m, c), s, m) = c & m` (R117). -/
theorem Place.load_store_bits {shift n : Nat} (hfit : shift + n ≤ 8) (byte : Nat) (big : Bool) (m : Memory)
    (c : Colour) :
    ((Place.bits byte shift (2 ^ n - 1)).load big ((Place.bits byte shift (2 ^ n - 1)).store big m c)).toNat =
      c.toNat &&& (2 ^ n - 1) := by
  refine Nat.eq_of_testBit_eq fun k => ?_
  rw [Nat.testBit_and, Nat.testBit_two_pow_sub_one, ← BitVec.getLsbD, ← BitVec.getLsbD,
    Place.getLsbD_load_bits hfit, Bool.and_comm]
  by_cases hk : k < n
  · rw [Place.getLsbD_store_bits hfit _ _ _ _ (by omega), if_pos (by omega), Nat.add_sub_cancel_left]
  · rw [decide_eq_false hk, Bool.and_false, Bool.and_false]

/-- A store to one field of a byte is not seen through another field of that byte. -/
theorem Place.load_store_bits_of_disjoint {shift shift' n : Nat} (hfit : shift + n ≤ 8) (hfit' : shift' + n ≤ 8)
    (hdisjoint : shift + n ≤ shift' ∨ shift' + n ≤ shift) (byte : Nat) (big : Bool) (m : Memory) (c : Colour) :
    (Place.bits byte shift' (2 ^ n - 1)).load big ((Place.bits byte shift (2 ^ n - 1)).store big m c) =
      (Place.bits byte shift' (2 ^ n - 1)).load big m := by
  refine BitVec.eq_of_getLsbD_eq fun k _ => ?_
  rw [Place.getLsbD_load_bits hfit', Place.getLsbD_load_bits hfit']
  by_cases hk : k < n
  · rw [Place.getLsbD_store_bits hfit _ _ _ _ (by omega), if_neg (by omega)]
  · simp [hk]

/-- A store is not seen through a place that has none of its bytes. -/
theorem Place.load_store_of_outside {p q : Place} (h : q.last < p.first ∨ p.last < q.first) (big : Bool) (m : Memory)
    (c : Colour) : q.load big (p.store big m c) = q.load big m :=
  q.load_congr big fun _ hfirst hlast => p.read_store_of_outside big m c (by omega)

/-! ## The place of a pixel, by its format -/

/-- A pixel of less than two bytes is one of the equal slots of a byte (R91 to R98). -/
theorem placeOf_packed {f : PixFormat} (hpacked : f ≠ .rgb565) (stride x y : Nat) :
    ∃ byte slot, placeOf f stride x y = .bits byte (slot * formatBits f) (2 ^ formatBits f - 1) ∧
      slot * formatBits f + formatBits f ≤ 8 := by
  refine ⟨(placeOf f stride x y).first, ?_⟩
  cases f with
  | rgb565 => exact absurd rfl hpacked
  | m1rm => exact ⟨x % 8, by simp [placeOf, placeM1RM, Place.first, formatBits], by simp only [formatBits]; omega⟩
  | m1rl =>
    exact ⟨7 - x % 8, by simp [placeOf, placeM1RL, Place.first, formatBits], by simp only [formatBits]; omega⟩
  | m1c => exact ⟨y % 8, by simp [placeOf, placeM1C, Place.first, formatBits], by simp only [formatBits]; omega⟩
  | g2r => exact ⟨x % 4, rfl, by simp only [formatBits]; omega⟩
  | g4rm =>
    exact ⟨if x % 2 = 0 then 1 else 0, by simp [placeOf, placeG4RM, Place.first, formatBits],
      by split <;> decide⟩
  | g4rl =>
    exact ⟨if x % 2 = 0 then 0 else 1, by simp [placeOf, placeG4RL, Place.first, formatBits],
      by split <;> decide⟩
  | g8 => exact ⟨0, rfl, by decide⟩

/-- A pixel is read back as it was stored, masked to the format (R117). -/
theorem placeOf_load_store (f : PixFormat) (stride x y : Nat) (big : Bool) (m : Memory) (c : Colour) :
    ((placeOf f stride x y).load big ((placeOf f stride x y).store big m c)).toNat = c.toNat &&& formatMax f := by
  by_cases hcell : f = .rgb565
  · subst hcell
    rw [show placeOf .rgb565 stride x y = .cell _ from rfl, Place.load_store_cell,
      BitVec.toNat_setWidth_of_le (by decide)]
    exact ((Nat.and_two_pow_sub_one_eq_mod _ 16).trans (Nat.mod_eq_of_lt c.isLt)).symm
  · obtain ⟨byte, slot, hplace, hfit⟩ := placeOf_packed hcell stride x y
    rw [hplace]
    exact Place.load_store_bits hfit byte big m c

/-- Storing to a pixel is not seen at another location (R117). -/
theorem placeOf_load_store_of_ne {f : PixFormat} {stride x y x' y' : Nat}
    (hne : placeOf f stride x' y' ≠ placeOf f stride x y) (big : Bool) (m : Memory) (c : Colour) :
    (placeOf f stride x' y').load big ((placeOf f stride x y).store big m c) = (placeOf f stride x' y').load big m := by
  by_cases hcell : f = .rgb565
  · subst hcell
    have hindex : x' + y' * stride ≠ x + y * stride := fun h => hne (congrArg (fun p => Place.cell (2 * p)) h)
    refine Place.load_store_of_outside ?_ big m c
    simp only [placeOf, placeRGB565, Place.first, Place.last]
    omega
  · obtain ⟨byte, slot, hplace, hfit⟩ := placeOf_packed hcell stride x y
    obtain ⟨byte', slot', hplace', hfit'⟩ := placeOf_packed hcell stride x' y'
    rw [hplace, hplace'] at hne ⊢
    by_cases hbyte : byte' = byte
    · subst hbyte
      have hslot : slot < slot' ∨ slot' < slot := Nat.lt_or_gt_of_ne fun h => hne (by rw [h])
      refine Place.load_store_bits_of_disjoint hfit hfit' ?_ byte' big m c
      exact hslot.imp (fun h => (Nat.succ_mul _ _).symm.trans_le (Nat.mul_le_mul_right _ h))
        (fun h => (Nat.succ_mul _ _).symm.trans_le (Nat.mul_le_mul_right _ h))
    · exact Place.load_store_of_outside (p := .bits ..) (q := .bits ..) (Nat.lt_or_gt_of_ne hbyte) big m c

/-- In a row-major format with an aligned stride a pixel lies where the pixel of its linear index would lie in one long
row (R118). -/
theorem placeOf_eq_linear {f : PixFormat} {stride : Nat} (hrow : f ≠ .m1c)
    (aligned : stride % formatGranularity f = 0) (x y : Nat) :
    placeOf f stride x y = placeOf f 0 (x + y * stride) 0 := by
  have hslot := add_mul_mod_of_aligned aligned x y
  cases f with
  | m1c => exact absurd rfl hrow
  | rgb565 | g8 => simp [placeOf, placeRGB565, placeG8]
  | m1rm | m1rl | g2r | g4rm | g4rl =>
    simp only [formatGranularity] at hslot
    simp [placeOf, placeM1RM, placeM1RL, placeG2R, placeG4RM, placeG4RL, hslot]

/-- In one long row different pixels have different locations. -/
theorem placeOf_linear_injective {f : PixFormat} (hrow : f ≠ .m1c) {p q : Nat}
    (h : placeOf f 0 p 0 = placeOf f 0 q 0) : p = q := by
  cases f with
  | m1c => exact absurd rfl hrow
  | rgb565 =>
    simp only [placeOf, placeRGB565, Place.cell.injEq] at h
    omega
  | m1rm | m1rl | g2r | g4rm | g4rl | g8 =>
    simp only [placeOf, placeM1RM, placeM1RL, placeG2R, placeG4RM, placeG4RL, placeG8, Place.bits.injEq] at h
    grind

/-- In the column-major format `x` beyond the stride runs into the next band (R118). -/
theorem placeM1C_next_band (stride x y : Nat) : placeM1C stride (x + stride) y = placeM1C stride x (y + 8) := by
  simp only [placeM1C, Place.bits.injEq]
  refine ⟨?_, by omega, trivial⟩
  rw [Nat.add_div_right y (by decide), Nat.succ_mul]
  omega

/-- The high nibble of a byte. -/
theorem Place.toNat_load_highNibble (byte : Nat) (big : Bool) (m : Memory) :
    ((Place.bits byte 4 15).load big m).toNat = (m.read byte).toNat / 16 := by
  have hbyte := (m.read byte).isLt
  rw [Place.toNat_load_bits _ _ (by decide), Nat.and_two_pow_sub_one_eq_mod _ 4, Nat.shiftRight_eq_div_pow]
  omega

/-- The low nibble of a byte. -/
theorem Place.toNat_load_lowNibble (byte : Nat) (big : Bool) (m : Memory) :
    ((Place.bits byte 0 15).load big m).toNat = (m.read byte).toNat % 16 := by
  rw [Place.toNat_load_bits _ _ (by decide), Nat.and_two_pow_sub_one_eq_mod _ 4, Nat.shiftRight_zero]

/-- The field that is the whole byte. -/
theorem Place.toNat_load_byte (byte : Nat) (big : Bool) (m : Memory) :
    ((Place.bits byte 0 255).load big m).toNat = (m.read byte).toNat := by
  rw [Place.toNat_load_bits _ _ (by decide), Nat.and_two_pow_sub_one_eq_mod _ 8, Nat.shiftRight_zero]
  exact Nat.mod_eq_of_lt (m.read byte).isLt

/-! ## PSET and PGET in the variant of a format (R99, R108) -/

section
/-! PSET and PGET end in the same three ways (`setPixel_cases`, `getPixel_cases`), with different work `done`. -/

variable {s t done : State} {top : Nat}
  (hcases : (s.pfValid = false ∧ t = s.raise .notConfigured) ∨
    (s.pfValid = true ∧ s.pfLen.toNat ≤ top ∧ t = s.raise .pixAddr) ∨
    (s.pfValid = true ∧ top < s.pfLen.toNat ∧ t = done))
include hcases

theorem checksPixel_of_cases {i : Instr} (hexec : exec i s = .next t) : ChecksPixel i s top := by
  unfold ChecksPixel
  rw [faults_iff, faults_iff, hexec]
  obtain ⟨hvalid, rfl⟩ | ⟨hvalid, -, rfl⟩ | ⟨hvalid, hin, -⟩ := hcases
  · exact ⟨fun _ => rfl, fun hset => by simp [hvalid] at hset⟩
  · exact ⟨fun hclear => by simp [hvalid] at hclear, fun _ _ => rfl⟩
  · exact ⟨fun hclear => by simp [hvalid] at hclear, fun _ hout => absurd hin (Nat.not_lt_of_le hout)⟩

theorem eq_done_of_inside (hvalid : s.pfValid = true) (hin : top < s.pfLen.toNat) : t = done := by
  obtain ⟨hclear, -⟩ | ⟨-, hout, -⟩ | ⟨-, -, hdone⟩ := hcases
  · simp [hvalid] at hclear
  · omega
  · exact hdone

end

theorem psetVariant_checksPixel (f : PixFormat) (x y : BitVec 16) (c : Colour) (s : State) :
    ChecksPixel (psetVariant f x y c) s (placeOf f s.pfStride.toNat x.toNat y.toNat).last :=
  checksPixel_of_cases (setPixel_cases _ c s) (exec_psetVariant f x y c s)

theorem pgetVariant_checksPixel (f : PixFormat) (x y : BitVec 16) (s : State) :
    ChecksPixel (pgetVariant f x y) s (placeOf f s.pfStride.toNat x.toNat y.toNat).last :=
  checksPixel_of_cases (getPixel_cases _ s) (exec_pgetVariant f x y s)

/-- A PSET that passes its checks stores the colour and answers 0. -/
theorem setPixel_of_inside {place : Place} {s : State} (hvalid : s.pfValid = true) (hin : place.last < s.pfLen.toNat)
    (c : Colour) : setPixel place c s = (s.setPix (place.store s.bigEndian s.pix c)).respond 0 :=
  eq_done_of_inside (setPixel_cases place c s) hvalid hin

/-- A PGET that passes its checks answers the pixel. -/
theorem getPixel_of_inside {place : Place} {s : State} (hvalid : s.pfValid = true)
    (hin : place.last < s.pfLen.toNat) : getPixel place s = s.respond (place.load s.bigEndian s.pix) :=
  eq_done_of_inside (getPixel_cases place s) hvalid hin

/-- PSET at a packed place patches the field there. -/
theorem psetVariant_patchesField {f : PixFormat} {x y : BitVec 16} {s : State} {byte shift n : Nat}
    (hplace : placeOf f s.pfStride.toNat x.toNat y.toNat = .bits byte shift (2 ^ n - 1)) (hfit : shift + n ≤ 8)
    (hvalid : s.pfValid = true) (hin : byte < s.pfLen.toNat) (c : Colour) :
    PatchesField (psetVariant f x y c) s byte shift n c := by
  refine ⟨(Place.bits byte shift (2 ^ n - 1)).store s.bigEndian s.pix c, ?_, fun a ha => ?_, fun k hk => ?_⟩
  · rw [exec_psetVariant, hplace, setPixel_of_inside (place := .bits ..) hvalid hin]
    rfl
  · exact Place.read_store_of_outside _ _ _ _ (Nat.lt_or_gt_of_ne ha)
  · exact Place.getLsbD_store_bits hfit _ _ _ _ hk

/-- PGET in the window answers what the load from its place gives. -/
theorem pgetVariant_answers (f : PixFormat) (x y : BitVec 16) {s : State} {value : Nat} (hvalid : s.pfValid = true)
    (hin : (placeOf f s.pfStride.toNat x.toNat y.toNat).last < s.pfLen.toNat)
    (hvalue : ((placeOf f s.pfStride.toNat x.toNat y.toNat).load s.bigEndian s.pix).toNat = value) :
    ∃ v, AnswersOnly (pgetVariant f x y) s v ∧ v.toNat = value := by
  refine ⟨(placeOf f s.pfStride.toNat x.toNat y.toNat).load s.bigEndian s.pix, ?_, hvalue⟩
  rw [AnswersOnly, exec_pgetVariant, getPixel_of_inside hvalid hin]
  rfl

/-! ## PSET (R100 to R107) -/

/-- Settles O27: the three one-bit places are packed with fields of one bit (`psetVariant_patchesField`). -/
theorem psetOneBitFormats : Obligations.PsetOneBitFormats := by
  intro x y c s
  simp only [shiftRight_three, and_seven]
  refine ⟨psetVariant_checksPixel .m1rm x y c s, psetVariant_checksPixel .m1rl x y c s,
    psetVariant_checksPixel .m1c x y c s, fun hvalid hin => ⟨?_, ?_⟩, fun hvalid hin => ?_⟩
  · exact psetVariant_patchesField (f := .m1rm) rfl (by omega) hvalid hin c
  · exact psetVariant_patchesField (f := .m1rl) rfl (by omega) hvalid hin c
  · exact psetVariant_patchesField (f := .m1c) rfl (by omega) hvalid hin c

/-- Settles O28: as for one bit, with fields of two and four bits. -/
theorem psetFieldFormats : Obligations.PsetFieldFormats := by
  intro x y c s
  simp only [shiftRight_two, shiftRight_one, and_three, Nat.shiftLeft_eq]
  refine ⟨psetVariant_checksPixel .g2r x y c s, psetVariant_checksPixel .g4rm x y c s,
    psetVariant_checksPixel .g4rl x y c s, fun hvalid hin => ?_, fun hvalid hin => ⟨?_, ?_⟩⟩
  · exact psetVariant_patchesField (f := .g2r) rfl (by omega) hvalid hin c
  · exact psetVariant_patchesField (f := .g4rm) rfl (by split <;> decide) hvalid hin c
  · exact psetVariant_patchesField (f := .g4rl) rfl (by split <;> decide) hvalid hin c

/-- Settles O29: G8 is the packed place that is a whole byte; a cell is stored as its two bytes
(`Place.read_store_cell_first`, `Place.read_store_cell_second`). -/
theorem psetWholeByteFormats : Obligations.PsetWholeByteFormats := by
  intro x y c s p
  refine ⟨psetVariant_checksPixel .g8 x y c s, psetVariant_checksPixel .rgb565 x y c s, fun hvalid hin => ?_,
    fun hvalid hin => ⟨(Place.cell (2 * p)).store s.bigEndian s.pix c, ?_,
      Place.read_store_cell_first _ _ _ _, Place.read_store_cell_second _ _ _ _, fun a hfirst hsecond => ?_⟩⟩
  · exact psetVariant_patchesField (f := .g8) rfl (by decide) hvalid hin c
  · exact (exec_psetVariant .rgb565 x y c s).trans
      (congrArg Host.Outcome.next (setPixel_of_inside (place := .cell _) hvalid hin c))
  · exact Place.read_store_of_outside _ _ _ _ (by simp only [Place.first, Place.last]; omega)

/-! ## PGET (R109 to R116) -/

/-- Settles O30: each variant checks its pixel (`pgetVariant_checksPixel`) and answers the load from its place
(`pgetVariant_answers`), which is the format's formula (`Place.toNat_load_bits`, `Place.toNat_load_cell`). -/
theorem pgetAnswers : Obligations.PgetAnswers := by
  intro x y s
  simp only [shiftRight_three, shiftRight_two, shiftRight_one, and_seven, and_three, Nat.shiftLeft_eq]
  refine ⟨⟨pgetVariant_checksPixel .m1rm x y s, pgetVariant_checksPixel .m1rl x y s,
      pgetVariant_checksPixel .m1c x y s, pgetVariant_checksPixel .rgb565 x y s, pgetVariant_checksPixel .g2r x y s,
      pgetVariant_checksPixel .g4rm x y s, pgetVariant_checksPixel .g4rl x y s, pgetVariant_checksPixel .g8 x y s⟩,
    fun hvalid hin => ⟨?_, ?_⟩, fun hvalid hin => ?_, fun hvalid hin => ?_, fun hvalid hin => ?_,
    fun hvalid hin => ⟨?_, ?_⟩, fun hvalid hin => ?_⟩
  · exact pgetVariant_answers .m1rm x y hvalid hin (Place.toNat_load_bits _ _ (by decide) _ _)
  · exact pgetVariant_answers .m1rl x y hvalid hin (Place.toNat_load_bits _ _ (by decide) _ _)
  · exact pgetVariant_answers .m1c x y hvalid hin (Place.toNat_load_bits _ _ (by decide) _ _)
  · exact pgetVariant_answers .rgb565 x y hvalid hin (Place.toNat_load_cell _ _ _)
  · exact pgetVariant_answers .g2r x y hvalid hin ((Place.toNat_load_bits _ _ (by decide) _ _).trans (and_three _))
  · refine pgetVariant_answers .g4rm x y hvalid hin ?_
    simp only [placeOf, placeG4RM]
    split
    · exact Place.toNat_load_highNibble _ _ _
    · exact Place.toNat_load_lowNibble _ _ _
  · refine pgetVariant_answers .g4rl x y hvalid hin ?_
    simp only [placeOf, placeG4RL]
    split
    · exact Place.toNat_load_lowNibble _ _ _
    · exact Place.toNat_load_highNibble _ _ _
  · exact pgetVariant_answers .g8 x y hvalid hin (Place.toNat_load_byte _ _ _)

/-! ## A PSET, then a PGET (R117) -/

/-- A step that takes the word of a command runs the variant that the selectors pick. -/
theorem step_of_command {s : State} {command : Command} {i : Instr} {rest : List HostMove}
    (hin : s.inbox = .command (encodeCommand command) :: rest) (legal : command.RegisterLegal)
    (hselect : selectVariant s.pfFormat s.gBpp command = .ok i) : step s = exec i (s.setInbox rest) := by
  have hdecode : decode s.pfFormat s.gBpp (encodeCommand command) = .ok i :=
    (decode_eq_ok_iff ..).mpr ⟨command, (decodeCommand_eq_ok_iff ..).mpr ⟨rfl, legal⟩, hselect⟩
  simp only [step_of_move hin, takeMove, runWord, State.setInbox_pfFormat, State.setInbox_gBpp, hdecode]

theorem step_pset {s : State} {x y : BitVec 16} {c : Colour} {rest : List HostMove}
    (hin : s.inbox = .command (encodeCommand (.pset x y c)) :: rest) :
    step s = .next (setPixel (placeOf (PixFormat.ofCode s.pfFormat) s.pfStride.toNat x.toNat y.toNat) c
      (s.setInbox rest)) :=
  (step_of_command hin nofun rfl).trans (exec_psetVariant _ x y c (s.setInbox rest))

theorem step_pget {s : State} {x y : BitVec 16} {rest : List HostMove}
    (hin : s.inbox = .command (encodeCommand (.pget x y)) :: rest) :
    step s = .next (getPixel (placeOf (PixFormat.ofCode s.pfFormat) s.pfStride.toNat x.toNat y.toNat)
      (s.setInbox rest)) :=
  (step_of_command hin nofun rfl).trans (exec_pgetVariant _ x y (s.setInbox rest))

/-- A fault is not an answer with status 0. -/
theorem raise_outbox_ne_answer (s : State) (cause : Cause) (value : BitVec 32) :
    (s.raise cause).outbox ≠ s.outbox ++ [responseWord 0 value] := by
  intro h
  have hstatus := congrArg responseStatus (response_eq_of_append_eq h)
  rw [responseStatus_responseWord, responseStatus_responseWord] at hstatus
  exact cause.code_ne_zero hstatus

/-- A PSET that answered status 0 has passed its checks. -/
theorem inside_of_setPixel_answer {place : Place} {c : Colour} {s : State} {value : BitVec 32}
    (h : (setPixel place c s).outbox = s.outbox ++ [responseWord 0 value]) :
    s.pfValid = true ∧ place.last < s.pfLen.toNat := by
  obtain ⟨-, hfault⟩ | ⟨-, -, hfault⟩ | ⟨hvalid, hin, -⟩ := setPixel_cases place c s
  · exact absurd (hfault ▸ h) (raise_outbox_ne_answer s _ value)
  · exact absurd (hfault ▸ h) (raise_outbox_ne_answer s _ value)
  · exact ⟨hvalid, hin⟩

/-- PSET changes none of the registers that PSET and PGET look at, and pixel memory at most by the store. -/
theorem setPixel_keeps (place : Place) (c : Colour) (s : State) :
    (setPixel place c s).pfStride = s.pfStride ∧ (setPixel place c s).pfLen = s.pfLen ∧
    (setPixel place c s).pfValid = s.pfValid ∧ (setPixel place c s).bigEndian = s.bigEndian ∧
    ((setPixel place c s).pix = s.pix ∨ (setPixel place c s).pix = place.store s.bigEndian s.pix c) := by
  obtain ⟨-, h⟩ | ⟨-, -, h⟩ | ⟨-, -, h⟩ := setPixel_cases place c s <;> rw [h]
  · exact ⟨rfl, rfl, rfl, rfl, .inl rfl⟩
  · exact ⟨rfl, rfl, rfl, rfl, .inl rfl⟩
  · exact ⟨rfl, rfl, rfl, rfl, .inr rfl⟩

/-- The response of PGET depends on the gate, the window and the pixel alone. -/
theorem getPixel_response_congr {place : Place} {s t : State} {r : Response} (hvalid : t.pfValid = s.pfValid)
    (hlen : t.pfLen = s.pfLen) (hload : place.load t.bigEndian t.pix = place.load s.bigEndian s.pix)
    (h : (getPixel place s).outbox = s.outbox ++ [r]) : (getPixel place t).outbox = t.outbox ++ [r] := by
  unfold getPixel at h ⊢
  rw [hvalid, hlen, hload]
  split_ifs at h ⊢
  all_goals
    cases response_eq_of_append_eq h
    rfl

/-- Settles O31: a completed PSET leaves the gate and the window open to the PGET that loads what was stored
(`placeOf_load_store`); elsewhere nothing is seen of the store (`placeOf_load_store_of_ne`); a row-major location is
that of the linear index (`placeOf_eq_linear`, `placeOf_linear_injective`). -/
theorem pixelRoundTrip : Obligations.PixelRoundTrip := by
  refine ⟨fun s t x y c rest hin hset hanswer => ?_,
    fun f s before after later x y x' y' c r hne hbefore hr hset hlater => ?_,
    fun f stride x y x' y' hrow aligned => ?_⟩
  · cases (step_pset hin).symm.trans hset
    obtain ⟨hvalid, hinside⟩ := inside_of_setPixel_answer hanswer
    rw [setPixel_of_inside hvalid hinside]
    exact ⟨_, _, (step_pget (rest := rest) rfl).trans (congrArg _ (getPixel_of_inside hvalid hinside)), rfl,
      placeOf_load_store _ _ _ _ _ _ c⟩
  · rw [exec_pgetVariant] at hbefore hlater
    rw [exec_psetVariant] at hset
    cases hbefore
    cases hset
    cases hlater
    obtain ⟨hstride, hlen, hvalid, hbig, hpix⟩ :=
      setPixel_keeps (placeOf f s.pfStride.toNat x.toNat y.toNat) c s
    rw [hstride]
    refine getPixel_response_congr hvalid hlen ?_ hr
    obtain hpix | hpix := hpix <;> rw [hbig, hpix]
    exact placeOf_load_store_of_ne hne _ _ c
  · rw [placeOf_eq_linear hrow aligned, placeOf_eq_linear hrow aligned x' y']
    exact ⟨placeOf_linear_injective hrow, fun h => by rw [h]⟩

/-! ## Coordinates beyond the stride (R118) -/

/-- PSET and PGET depend on the coordinates through the place alone. -/
theorem pixelVariants_congr {f : PixFormat} {s : State} {x y x' y' : BitVec 16}
    (hplace : placeOf f s.pfStride.toNat x.toNat y.toNat = placeOf f s.pfStride.toNat x'.toNat y'.toNat)
    (c : Colour) :
    exec (psetVariant f x y c) s = exec (psetVariant f x' y' c) s ∧
    exec (pgetVariant f x y) s = exec (pgetVariant f x' y') s := by
  simp only [exec_psetVariant, exec_pgetVariant, hplace, and_self]

/-- Coordinates with one linear index are the same to PSET and PGET in the row-major formats. -/
theorem pixelVariants_congr_of_linearIndex {f : PixFormat} {s : State} {x y x' y' : BitVec 16} (hrow : f ≠ .m1c)
    (aligned : s.pfStride.toNat % formatGranularity f = 0)
    (hindex : x.toNat + y.toNat * s.pfStride.toNat = x'.toNat + y'.toNat * s.pfStride.toNat) (c : Colour) :
    exec (psetVariant f x y c) s = exec (psetVariant f x' y' c) s ∧
    exec (pgetVariant f x y) s = exec (pgetVariant f x' y') s := by
  refine pixelVariants_congr ?_ c
  rw [placeOf_eq_linear hrow aligned, hindex, ← placeOf_eq_linear hrow aligned]

/-- Settles O32: in the row-major formats by the linear index, which is the same for `(x - S, y + 1)`; in the
column-major format the next band begins after `S` columns (`placeM1C_next_band`). -/
theorem aliasedCoordinates : Obligations.AliasedCoordinates := by
  refine ⟨fun f s x y x' y' c hrow aligned hindex => pixelVariants_congr_of_linearIndex hrow aligned hindex c,
    fun f s x y x' y' c hrow aligned hx hy => ?_, fun s x y x' y' c hx hy => ?_⟩
  · refine pixelVariants_congr_of_linearIndex hrow aligned ?_ c
    rw [hx, hy, Nat.succ_mul]
    omega
  · refine pixelVariants_congr (f := .m1c) ?_ c
    rw [hx, hy]
    exact placeM1C_next_band _ _ _

end Sys2Proof.Machine
end

section
/-! Painting: what a fill leaves, bit by bit. A memory update paints a set of bits when those bits take given values and
every other bit keeps its own. Updates that paint with the same values compose, in any order, into one that paints the
union, and the memory they leave is determined by that union (42_pixel_fill.md R120). -/

namespace Sys2Proof.Machine

/-! ## Painted memories -/

/-- `n` reads as `m` does, but for the bits in `owned`, which have the values `paint`. -/
def Painted (owned : Nat → Nat → Prop) (paint : Nat → Nat → Bool) (m n : Memory) : Prop :=
  ∀ a k, k < 8 → (owned a k → (n.read a).getLsbD k = paint a k) ∧
    (¬ owned a k → (n.read a).getLsbD k = (m.read a).getLsbD k)

section
variable {owned owned' : Nat → Nat → Prop} {paint : Nat → Nat → Bool} {m n n' : Memory}

theorem Painted.congr (h : Painted owned paint m n) (same : ∀ a k, k < 8 → (owned' a k ↔ owned a k)) :
    Painted owned' paint m n := by
  intro a k hk
  rw [same a k hk]
  exact h a k hk

theorem Painted.refl (hnone : ∀ a k, ¬ owned a k) : Painted owned paint m m :=
  fun a k _ => ⟨fun ho => absurd ho (hnone a k), fun _ => rfl⟩

/-- Painting twice with the same values paints the union. -/
theorem Painted.trans (h : Painted owned paint m n) (h' : Painted owned' paint n n') :
    Painted (fun a k => owned a k ∨ owned' a k) paint m n' := by
  intro a k hk
  obtain ⟨hin, hout⟩ := h a k hk
  obtain ⟨hin', hout'⟩ := h' a k hk
  by_cases ho' : owned' a k
  · exact ⟨fun _ => hin' ho', fun hno => absurd (.inr ho') hno⟩
  · rw [hout' ho']
    exact ⟨fun ho => hin (ho.resolve_right ho'), fun hno => hout fun ho => hno (.inl ho)⟩

/-- A painting that is done under a condition only. -/
theorem Painted.ite {cond : Prop} [Decidable cond] (h : Painted owned paint m n) :
    Painted (fun a k => cond ∧ owned a k) paint m (if cond then n else m) := by
  split
  case isTrue hc => exact h.congr fun a k _ => and_iff_right hc
  case isFalse hc => exact Painted.refl fun a k ho => hc ho.1

/-- The painted set and its values determine the memory. -/
theorem Painted.read_unique (h : Painted owned paint m n) (h' : Painted owned paint m n') (a : Nat) :
    n.read a = n'.read a := by
  refine BitVec.eq_of_getLsbD_eq fun k hk => ?_
  obtain ⟨hin, hout⟩ := h a k hk
  obtain ⟨hin', hout'⟩ := h' a k hk
  by_cases ho : owned a k
  · rw [hin ho, hin' ho]
  · rw [hout ho, hout' ho]

/-- A byte that is painted whole. -/
theorem Painted.read_of_owned (h : Painted owned paint m n) {a : Nat} {b : Byte} (hall : ∀ k, k < 8 → owned a k)
    (hb : ∀ k, k < 8 → b.getLsbD k = paint a k) : n.read a = b :=
  BitVec.eq_of_getLsbD_eq fun k hk => ((h a k hk).1 (hall k hk)).trans (hb k hk).symm

/-- A byte of which nothing is painted. -/
theorem Painted.read_of_free (h : Painted owned paint m n) {a : Nat} (hnone : ∀ k, k < 8 → ¬ owned a k) :
    n.read a = m.read a :=
  BitVec.eq_of_getLsbD_eq fun k hk => (h a k hk).2 (hnone k hk)

end

/-- Painting along a list. -/
theorem Painted.foldl {α : Type} {owned : α → Nat → Nat → Prop} {paint : Nat → Nat → Bool}
    {f : Memory → α → Memory} (l : List α) (m : Memory)
    (step : ∀ i ∈ l, ∀ n, Painted (owned i) paint n (f n i)) :
    Painted (fun a k => ∃ i ∈ l, owned i a k) paint m (l.foldl f m) := by
  induction l generalizing m with
  | nil => exact Painted.refl (by simp)
  | cons i rest ih =>
    have hfirst := step i (by simp) m
    have hrest := ih (f m i) fun j hj => step j (List.mem_cons_of_mem i hj)
    exact (hfirst.trans hrest).congr fun a k _ => by simp

/-- Painting along a range. -/
theorem Painted.forRange {owned : Nat → Nat → Nat → Prop} {paint : Nat → Nat → Bool} {f : Nat → Memory → Memory}
    (lo len : Nat) (m : Memory)
    (step : ∀ i, lo ≤ i → i < lo + len → ∀ n, Painted (owned i) paint n (f i n)) :
    Painted (fun a k => ∃ i, lo ≤ i ∧ i < lo + len ∧ owned i a k) paint m (forRange lo len f m) := by
  rw [forRange_eq_foldl]
  refine (Painted.foldl (owned := owned) (List.range' lo len) m fun i hi n => ?_).congr fun a k _ => ?_
  · obtain ⟨hlo, hhi⟩ := List.mem_range'_1.mp hi
    exact step i hlo hhi n
  · simp only [List.mem_range'_1, and_assoc]

/-! ## Painting bytes -/

/-- A byte written whole. -/
theorem write_painted {paint : Nat → Nat → Bool} {b : Byte} {a : Nat} (hb : ∀ k, k < 8 → b.getLsbD k = paint a k)
    (m : Memory) : Painted (fun a' _ => a' = a) paint m (m.write a b) := by
  intro a' k hk
  refine ⟨?_, fun hne => by rw [Memory.read_write_of_ne _ _ hne]⟩
  rintro rfl
  rw [Memory.read_write_same, hb k hk]

/-- A byte patched under a mask (42_pixel_fill.md R132). -/
theorem patchByte_painted {paint : Nat → Nat → Bool} {rep : Byte} {a : Nat}
    (hrep : ∀ k, k < 8 → rep.getLsbD k = paint a k) (mask : Byte) (m : Memory) :
    Painted (fun a' k => a' = a ∧ mask.getLsbD k = true) paint m (patchByte rep mask a m) := by
  intro a' k hk
  unfold patchByte
  by_cases ha : a' = a
  · subst ha
    rw [Memory.read_write_same]
    cases hmask : mask.getLsbD k <;>
      simp only [BitVec.getLsbD_or, BitVec.getLsbD_and, BitVec.getLsbD_not, hk, hmask, hrep] <;> simp
  · rw [Memory.read_write_of_ne _ _ ha]
    exact ⟨fun ho => absurd ho.1 ha, fun _ => rfl⟩

/-! ## Painting pixels -/

/-- The bit that a colour gives to bit `k` of the byte at `a`, whichever pixel owns it: cells begin at even offsets, and
the packed fields divide a byte into equal slots. -/
def paintBit (f : PixFormat) (big : Bool) (c : Colour) (a k : Nat) : Bool :=
  if f = .rgb565 then (if a % 2 = 0 then cellFirst big c else cellSecond big c).getLsbD k
  else c.getLsbD (k % formatBits f)

theorem paintBit_cell_first (big : Bool) (c : Colour) (index k : Nat) :
    paintBit .rgb565 big c (2 * index) k = (cellFirst big c).getLsbD k := by
  simp [paintBit]

theorem paintBit_cell_second (big : Bool) (c : Colour) (index k : Nat) :
    paintBit .rgb565 big c (2 * index + 1) k = (cellSecond big c).getLsbD k := by
  simp [paintBit, show (2 * index + 1) % 2 = 1 by omega]

theorem paintBit_packed {f : PixFormat} (hpacked : f ≠ .rgb565) (big : Bool) (c : Colour) (a k : Nat) :
    paintBit f big c a k = c.getLsbD (k % formatBits f) :=
  if_neg hpacked

/-- In slot `slot` of a byte the colour begins at its own bit 0. -/
theorem paintBit_slot {f : PixFormat} (hpacked : f ≠ .rgb565) (big : Bool) (c : Colour) (a : Nat) {slot k : Nat}
    (hlow : slot * formatBits f ≤ k) (hhigh : k < slot * formatBits f + formatBits f) :
    paintBit f big c a k = c.getLsbD (k - slot * formatBits f) := by
  obtain ⟨i, rfl⟩ := Nat.exists_eq_add_of_le hlow
  rw [paintBit_packed hpacked, Nat.mul_add_mod_self_right, Nat.mod_eq_of_lt (by omega), Nat.add_sub_cancel_left]

theorem ownsBit_cell (stride x y a k : Nat) :
    OwnsBit .rgb565 stride x y a k ↔ (a = 2 * (x + y * stride) ∨ a = 2 * (x + y * stride) + 1) ∧ k < 8 :=
  Iff.rfl

theorem ownsBit_of_place {f : PixFormat} {stride x y byte shift fmask : Nat}
    (hplace : placeOf f stride x y = .bits byte shift fmask) (a k : Nat) :
    OwnsBit f stride x y a k ↔ a = byte ∧ shift ≤ k ∧ k < shift + formatBits f := by
  unfold OwnsBit
  rw [hplace]

/-- Storing a pixel paints the bits it owns (41_pixel_set_get.md R99, R103). -/
theorem placeOf_store_painted (f : PixFormat) (stride x y : Nat) (big : Bool) (c : Colour) (m : Memory) :
    Painted (OwnsBit f stride x y) (paintBit f big c) m ((placeOf f stride x y).store big m c) := by
  by_cases hcell : f = .rgb565
  · subst hcell
    have hfirst := write_painted (fun k _ => (paintBit_cell_first big c (x + y * stride) k).symm) m
    exact (hfirst.trans (write_painted (fun k _ => (paintBit_cell_second big c (x + y * stride) k).symm) _)).congr
      fun a k hk => (ownsBit_cell stride x y a k).trans (and_iff_left hk)
  · obtain ⟨byte, slot, hplace, hfit⟩ := placeOf_packed hcell stride x y
    intro a k hk
    rw [ownsBit_of_place hplace, hplace]
    by_cases ha : a = byte
    · subst ha
      rw [Place.getLsbD_store_bits hfit _ _ _ _ hk]
      refine ⟨fun ⟨_, hfield⟩ => ?_, fun hno => if_neg fun hfield => hno ⟨rfl, hfield⟩⟩
      rw [if_pos hfield, paintBit_slot hcell big c a hfield.1 hfield.2]
    · rw [Place.read_store_of_outside _ _ _ _ (Nat.lt_or_gt_of_ne ha)]
      exact ⟨fun ho => absurd ho.1 ha, fun _ => rfl⟩

/-- A load looks at the bits the pixel owns and no others. -/
theorem placeOf_load_congr {f : PixFormat} {stride x y : Nat} {m n : Memory} (big : Bool)
    (h : ∀ a k, k < 8 → OwnsBit f stride x y a k → (m.read a).getLsbD k = (n.read a).getLsbD k) :
    (placeOf f stride x y).load big m = (placeOf f stride x y).load big n := by
  by_cases hcell : f = .rgb565
  · subst hcell
    refine Place.load_congr _ big fun a hfirst hlast => BitVec.eq_of_getLsbD_eq fun k hk => h a k hk ?_
    simp only [placeOf, placeRGB565, Place.first, Place.last] at hfirst hlast
    rw [ownsBit_cell]
    omega
  · obtain ⟨byte, slot, hplace, hfit⟩ := placeOf_packed hcell stride x y
    rw [hplace]
    refine BitVec.eq_of_getLsbD_eq fun k _ => ?_
    rw [Place.getLsbD_load_bits hfit, Place.getLsbD_load_bits hfit]
    by_cases hk : k < formatBits f
    · rw [h byte _ (by omega) ((ownsBit_of_place hplace _ _).mpr ⟨rfl, by omega, by omega⟩)]
    · simp [hk]

/-- A pixel whose bits are all painted holds the masked colour. -/
theorem Painted.load {owned : Nat → Nat → Prop} {f : PixFormat} {big : Bool} {c : Colour} {m n : Memory}
    (h : Painted owned (paintBit f big c) m n) {stride x y : Nat}
    (hall : ∀ a k, OwnsBit f stride x y a k → owned a k) :
    ((placeOf f stride x y).load big n).toNat = c.toNat &&& formatMax f := by
  rw [← placeOf_load_store f stride x y big n c]
  refine congrArg BitVec.toNat (placeOf_load_congr big fun a k hk ho => ?_)
  rw [(h a k hk).1 (hall a k ho), (placeOf_store_painted f stride x y big c n a k hk).1 ho]

/-! ## Painting rectangles -/

/-- The bits that the pixels of a rectangle own. -/
def RectOwnsBit (f : PixFormat) (stride x y w h a k : Nat) : Prop :=
  ∃ xx yy, InRect x y w h xx yy ∧ OwnsBit f stride xx yy a k

/-- A fill paints the bits of the rectangle's pixels (42_pixel_fill.md R120). -/
theorem fillPixels_painted (f : PixFormat) (stride x y w h : Nat) (big : Bool) (c : Colour) (m : Memory) :
    Painted (RectOwnsBit f stride x y w h) (paintBit f big c) m (fillPixels (placeOf f stride) big x y w h c m) := by
  refine (Painted.forRange y h m fun yy _ _ row => Painted.forRange x w row fun xx _ _ mem =>
    placeOf_store_painted f stride xx yy big c mem).congr fun a k _ => ⟨?_, ?_⟩
  · rintro ⟨xx, yy, ⟨hx, hxw, hy, hyh⟩, ho⟩
    exact ⟨yy, hy, hyh, xx, hx, hxw, ho⟩
  · rintro ⟨yy, hy, hyh, xx, hx, hxw, ho⟩
    exact ⟨xx, yy, ⟨hx, hxw, hy, hyh⟩, ho⟩

/-- Any listing of the rectangle's pixels paints the same bits (42_pixel_fill.md R120). -/
theorem foldl_store_painted (f : PixFormat) (stride x y w h : Nat) (big : Bool) (c : Colour) (m : Memory)
    {order : List (Nat × Nat)} (horder : ∀ q, q ∈ order ↔ InRect x y w h q.1 q.2) :
    Painted (RectOwnsBit f stride x y w h) (paintBit f big c) m
      (order.foldl (fun n q => (placeOf f stride q.1 q.2).store big n c) m) := by
  refine (Painted.foldl order m fun q _ n => placeOf_store_painted f stride q.1 q.2 big c n).congr fun a k _ => ?_
  simp only [RectOwnsBit, Prod.exists, horder]

end Sys2Proof.Machine
end

section
/-! PFILL (42_pixel_fill.md R120 to R123, R127, R131, R134): the checks of its eight variants, what a fill that answers
status 0 has done, and what PGET finds afterwards. -/

namespace Sys2Proof.Machine

/-! ## The checks (R121, R122, R123) -/

/-- The footprint of R121, format by format, is where the bottom-right pixel ends. -/
theorem footprintTop_eq_topOffset (f : PixFormat) (stride x y w h : Nat) :
    footprintTop f stride (x + w - 1) (y + h - 1) = topOffset (placeOf f stride) x y w h := by
  cases f <;>
    simp only [footprintTop, topOffset, placeOf, placeM1RM_spelled, placeM1RL_spelled, placeM1C_spelled,
      placeRGB565, placeG2R_spelled, placeG4RM_spelled, placeG4RL_spelled, placeG8, Place.last]

theorem pfillVariant_checksFill (f : PixFormat) (x y w h : BitVec 16) (c : Colour) (s : State) :
    ChecksFill (pfillVariant f x y w h c) s w h
      (footprintTop f s.pfStride.toNat (x.toNat + w.toNat - 1) (y.toNat + h.toNat - 1)) := by
  unfold ChecksFill AnswersOnly
  rw [faults_iff, faults_iff, exec_pfillVariant, footprintTop_eq_topOffset]
  obtain ⟨hclear, e⟩ | ⟨hset, hempty, e⟩ | ⟨hset, hw, hh, hout, e⟩ | ⟨hset, hw, hh, hin, e⟩ :=
    fillRectangle_cases (placeOf f s.pfStride.toNat) x y w h c s <;> rw [e]
  · simp [hclear]
  · refine ⟨by simp [hset], fun _ _ => rfl, fun _ hw hh => absurd hempty (not_or.mpr ⟨hw, hh⟩)⟩
  · exact ⟨by simp [hset], fun _ hempty => absurd hempty (not_or.mpr ⟨hw, hh⟩), fun _ _ _ _ => rfl⟩
  · exact ⟨by simp [hset], fun _ hempty => absurd hempty (not_or.mpr ⟨hw, hh⟩),
      fun _ _ _ hout => absurd hin (Nat.not_lt_of_le hout)⟩

/-- A fill of a rectangle inside the window fills it, answers status 0 and changes nothing else. -/
theorem pfillVariant_of_inside {f : PixFormat} {x y w h : BitVec 16} {s : State} (hvalid : s.pfValid = true)
    (hw : w ≠ 0) (hh : h ≠ 0)
    (hin : footprintTop f s.pfStride.toNat (x.toNat + w.toNat - 1) (y.toNat + h.toNat - 1) < s.pfLen.toNat)
    (c : Colour) :
    exec (pfillVariant f x y w h c) s = .next ((s.setPix (fillPixels (placeOf f s.pfStride.toNat) s.bigEndian
      x.toNat y.toNat w.toNat h.toNat c s.pix)).respond 0) := by
  rw [footprintTop_eq_topOffset] at hin
  rw [exec_pfillVariant]
  obtain ⟨hclear, -⟩ | ⟨-, hempty, -⟩ | ⟨-, -, -, hout, -⟩ | ⟨-, -, -, -, e⟩ :=
    fillRectangle_cases (placeOf f s.pfStride.toNat) x y w h c s
  · simp [hvalid] at hclear
  · exact absurd hempty (not_or.mpr ⟨hw, hh⟩)
  · omega
  · rw [e]

theorem toNat_pos_of_ne_zero {v : BitVec 16} (h : v ≠ 0) : 0 < v.toNat :=
  Nat.pos_of_ne_zero fun hzero => h (BitVec.eq_of_toNat_eq hzero)

/-- Settles O38: the footprint is that of the bottom-right pixel (`footprintTop_eq_topOffset`), above which no pixel of
the rectangle ends (`placeOf_last_mono`). -/
theorem fillFootprint : Obligations.FillFootprint := by
  intro f x y w h c s hw hh hvalid top
  have hwpos := toNat_pos_of_ne_zero hw
  have hhpos := toNat_pos_of_ne_zero hh
  have htop : top = (placeOf f s.pfStride.toNat (x.toNat + w.toNat - 1) (y.toNat + h.toNat - 1)).last :=
    footprintTop_eq_topOffset f s.pfStride.toNat x.toNat y.toNat w.toNat h.toNat
  obtain ⟨-, -, hfault⟩ := pfillVariant_checksFill f x y w h c s
  refine ⟨fun xx yy hrect => ?_, ⟨_, _, ?_, htop.symm⟩, hfault hvalid hw hh⟩
  · rw [htop]
    exact placeOf_last_mono f _ (by omega) (by omega)
  · omega

/-! ## What a completed fill has done (R120) -/

/-- A fill of an empty rectangle leaves the memory it finds. -/
theorem fillPixels_empty (place : Nat → Nat → Place) (big : Bool) (x y : Nat) {w h : Nat} (hempty : w = 0 ∨ h = 0)
    (c : Colour) (m : Memory) : fillPixels place big x y w h c m = m :=
  fillPixels_keeps (fun n => n = m) place big x y w h c m (fun _ _ _ _ _ _ => by omega) rfl

/-- A fill that answered status 0 has passed the gate, all of its rectangle is inside the window, and it has filled the
rectangle, be it empty, and done no more. -/
theorem pfillVariant_answer {f : PixFormat} {x y w h : BitVec 16} {c : Colour} {s t : State}
    (hexec : exec (pfillVariant f x y w h c) s = .next t) (hanswer : t.outbox = s.outbox ++ [responseWord 0 0]) :
    s.pfValid = true ∧
    (∀ xx yy, InRect x.toNat y.toNat w.toNat h.toNat xx yy →
      (placeOf f s.pfStride.toNat xx yy).last < s.pfLen.toNat) ∧
    t = (s.setPix (fillPixels (placeOf f s.pfStride.toNat) s.bigEndian x.toNat y.toNat w.toNat h.toNat c
      s.pix)).respond 0 := by
  rw [exec_pfillVariant] at hexec
  cases hexec
  obtain ⟨-, e⟩ | ⟨hvalid, hempty, e⟩ | ⟨-, -, -, -, e⟩ | ⟨hvalid, -, -, hin, e⟩ :=
    fillRectangle_cases (placeOf f s.pfStride.toNat) x y w h c s
  · exact absurd (e ▸ hanswer) (raise_outbox_ne_answer s _ 0)
  · have hnat : w.toNat = 0 ∨ h.toNat = 0 := hempty.imp (congrArg BitVec.toNat) (congrArg BitVec.toNat)
    refine ⟨hvalid, fun xx yy hrect => by omega, ?_⟩
    rw [e, fillPixels_empty _ _ _ _ hnat]
    rfl
  · exact absurd (e ▸ hanswer) (raise_outbox_ne_answer s _ 0)
  · exact ⟨hvalid, fun xx yy hrect => (placeOf_last_mono f _ (by omega) (by omega)).trans_lt hin, e⟩

/-- Settles O40: a fill paints the bits of its pixels (`fillPixels_painted`), each pixel is then read as the masked
colour (`Painted.load`), and any listing of the rectangle paints the same bits (`foldl_store_painted`). -/
theorem fillResult : Obligations.FillResult := by
  intro f x y w h c s t hexec hanswer
  obtain ⟨-, -, rfl⟩ := pfillVariant_answer hexec hanswer
  have hpaint := fillPixels_painted f s.pfStride.toNat x.toNat y.toNat w.toNat h.toNat s.bigEndian c s.pix
  refine ⟨fun xx yy hrect => hpaint.load fun a k ho => ⟨xx, yy, hrect, ho⟩, fun a k hk hfree => ?_,
    fun order horder a => ?_⟩
  · exact (hpaint a k hk).2 fun ⟨xx, yy, hrect, ho⟩ => hfree xx yy hrect ho
  · exact hpaint.read_unique (foldl_store_painted f _ _ _ _ _ _ c _ horder) a

/-! ## Whole bytes and cells (R127, R131) -/

/-- Settles O44: a pixel of G8 owns one byte whole and a cell two, so that the painted bytes hold the colour
(`Painted.read_of_owned`) and the others what they held (`Painted.read_of_free`). -/
theorem fillWholeCells : Obligations.FillWholeCells := by
  intro x y w h c s last
  have hbytes := fillPixels_painted .g8 s.pfStride.toNat x.toNat y.toNat w.toNat h.toNat s.bigEndian c s.pix
  have hcells := fillPixels_painted .rgb565 s.pfStride.toNat x.toNat y.toNat w.toNat h.toNat s.bigEndian c s.pix
  refine ⟨pfillVariant_checksFill .g8 x y w h c s, pfillVariant_checksFill .rgb565 x y w h c s,
    fun hvalid hw hh hin => ⟨_, pfillVariant_of_inside (f := .g8) hvalid hw hh hin c, fun xx yy hrect => ?_,
      fun a hfree => ?_⟩,
    fun hvalid hw hh hin => ⟨_, pfillVariant_of_inside (f := .rgb565) hvalid hw hh hin c,
      fun xx yy hrect => ⟨?_, ?_⟩, fun a hfree => ?_⟩⟩
  · refine hbytes.read_of_owned (fun k hk => ⟨xx, yy, hrect, rfl, Nat.zero_le k, ?_⟩)
      fun k hk => ?_
    · simpa [formatBits] using hk
    · simp [paintBit, formatBits, Nat.mod_eq_of_lt hk, hk]
  · refine hbytes.read_of_free fun k _ ⟨xx, yy, hrect, ho⟩ => ?_
    exact hfree xx yy hrect ho.1
  · exact hcells.read_of_owned
      (fun k hk => ⟨xx, yy, hrect, (ownsBit_cell ..).mpr ⟨.inl rfl, hk⟩⟩)
      fun k _ => (paintBit_cell_first ..).symm
  · exact hcells.read_of_owned
      (fun k hk => ⟨xx, yy, hrect, (ownsBit_cell ..).mpr ⟨.inr rfl, hk⟩⟩)
      fun k _ => (paintBit_cell_second ..).symm
  · refine hcells.read_of_free fun k _ ⟨xx, yy, hrect, ho⟩ => hfree xx yy hrect ?_
    rw [ownsBit_cell] at ho
    omega

/-! ## Laws (R134) -/

/-- A linear index has one column below the stride and one row. -/
theorem linearIndex_injective {stride x y x' y' : Nat} (hx : x < stride) (hx' : x' < stride)
    (h : x + y * stride = x' + y' * stride) : x = x' ∧ y = y' := by
  have hxx : x = x' := by
    have hmod := congrArg (· % stride) h
    simpa [Nat.mod_eq_of_lt hx, Nat.mod_eq_of_lt hx'] using hmod
  subst hxx
  exact ⟨rfl, Nat.eq_of_mul_eq_mul_right (by omega) (Nat.add_left_cancel h)⟩

/-- Inside the stride different pixels have different locations. -/
theorem placeOf_injective {f : PixFormat} {stride x y x' y' : Nat} (aligned : stride % formatGranularity f = 0)
    (hx : x < stride) (hx' : x' < stride) (h : placeOf f stride x y = placeOf f stride x' y') : x = x' ∧ y = y' := by
  by_cases hcolumn : f = .m1c
  · subst hcolumn
    simp only [placeOf, placeM1C, Place.bits.injEq, and_true] at h
    obtain ⟨hbyte, hrow⟩ := h
    obtain ⟨hxx, hband⟩ := linearIndex_injective (y := y / 8) (y' := y' / 8) hx hx' (by omega)
    omega
  · rw [placeOf_eq_linear hcolumn aligned, placeOf_eq_linear hcolumn aligned x' y'] at h
    exact linearIndex_injective hx hx' (placeOf_linear_injective hcolumn h)

/-- A fill of one pixel is the PSET of that pixel, checks and faults included. -/
theorem pfillVariant_one_by_one (f : PixFormat) (x y : BitVec 16) (c : Colour) (s : State) :
    exec (pfillVariant f x y 1 1 c) s = exec (psetVariant f x y c) s := by
  rw [exec_pfillVariant, exec_psetVariant]
  simp [fillRectangle, setPixel, topOffset, fillPixels]

/-- Settles O45: the gate and the window stay open to PGET, which loads the masked colour inside the rectangle
(`Painted.load`) and sees none of the stores elsewhere (`placeOf_load_store_of_ne`); inside the stride a location is
one pixel's (`placeOf_injective`); a 1 by 1 fill is one store. -/
theorem fillLaws : Obligations.FillLaws := by
  refine ⟨fun f x y w h xx yy c s t hexec hanswer hrect => ?_,
    fun f x y w h xx yy c s t before after r hexec hanswer hfree hbefore hr hafter => ?_,
    fun f stride x y w h xx yy aligned hwidth hxx => ⟨?_, fun hrect => ⟨xx, yy, hrect, rfl⟩⟩,
    pfillVariant_one_by_one⟩
  · obtain ⟨hvalid, hwindow, rfl⟩ := pfillVariant_answer hexec hanswer
    have hpaint := fillPixels_painted f s.pfStride.toNat x.toNat y.toNat w.toNat h.toNat s.bigEndian c s.pix
    exact pgetVariant_answers f xx yy hvalid (hwindow _ _ hrect)
      (hpaint.load fun a k ho => ⟨_, _, hrect, ho⟩)
  · obtain ⟨-, -, rfl⟩ := pfillVariant_answer hexec hanswer
    rw [exec_pgetVariant] at hbefore hafter
    cases hbefore
    cases hafter
    refine getPixel_response_congr (s := s) rfl rfl ?_ hr
    refine fillPixels_keeps (fun m => (placeOf f s.pfStride.toNat xx.toNat yy.toNat).load s.bigEndian m =
      (placeOf f s.pfStride.toNat xx.toNat yy.toNat).load s.bigEndian s.pix) _ _ _ _ _ _ c _ ?_ rfl
    intro x' y' hx hxw hy hyh m hm
    rw [placeOf_load_store_of_ne (hfree x' y' ⟨hx, hxw, hy, hyh⟩).symm, hm]
  · rintro ⟨x', y', hrect, hplace⟩
    obtain ⟨rfl, rfl⟩ := placeOf_injective aligned (by omega) hxx hplace
    exact hrect

/-! ## The empty rectangle (R122) -/

/-- Settles O37, by the first two of PFILL's checks. -/
theorem fillEmptyRectangle : Obligations.FillEmptyRectangle := by
  intro f x y w h c s hempty
  obtain ⟨hgate, hnothing, -⟩ := pfillVariant_checksFill f x y w h c s
  exact ⟨fun hvalid => hnothing hvalid hempty, hgate⟩

end Sys2Proof.Machine
end

section
/-! The packed-byte fast path (42_pixel_fill.md R132, R133): a run, and a band, paint the bits that the rectangle's
pixels own, so the fast path leaves what the pixel-by-pixel fill leaves. -/

namespace Sys2Proof.Machine

/-! ## Slots of a byte (R132) -/

/-- The slot of a byte that bit `k` belongs to. -/
def slotOf (p : Packing) (k : Nat) : Nat :=
  if p.rising then k / p.slope else p.ppb - 1 - k / p.slope

/-- What the packings of the row-major sub-byte formats share: the slots are equal fields that fill a byte. -/
theorem packingOf_fields {f : PixFormat} {p : Packing} (hp : packingOf f = some p) :
    f ≠ .rgb565 ∧ f ≠ .m1c ∧ p.slope = formatBits f ∧ p.cmax = 2 ^ p.slope - 1 ∧ 0 < p.ppb := by
  cases f <;> cases hp <;> decide

theorem slotOf_lt {f : PixFormat} {p : Packing} (hp : packingOf f = some p) {k : Nat} (hk : k < 8) :
    slotOf p k < p.ppb := by
  cases f <;> cases hp <;> simp only [slotOf, if_true, if_false, Bool.false_eq_true] <;> omega

/-- Bit `k` lies in the field of slot `slot` exactly when that is its slot. -/
theorem slotShift_field_iff {f : PixFormat} {p : Packing} (hp : packingOf f = some p) {slot k : Nat}
    (hslot : slot < p.ppb) (hk : k < 8) :
    slotShift p slot ≤ k ∧ k < slotShift p slot + p.slope ↔ slot = slotOf p k := by
  cases f <;> cases hp <;> simp only [slotShift, slotOf, if_true, if_false, Bool.false_eq_true] at hslot ⊢ <;> omega

/-- The pixel of a linear index lies in the byte of the quotient, in the slot of the remainder. -/
theorem placeOf_linear_packing {f : PixFormat} {p : Packing} (hp : packingOf f = some p) (index : Nat) :
    placeOf f 0 index 0 = .bits (index / p.ppb) (slotShift p (index % p.ppb)) p.cmax := by
  cases f <;> cases hp <;> simp [placeOf, placeM1RM, placeM1RL, placeG2R, placeG4RM, placeG4RL, slotShift] <;> grind

/-- A bit has one owner in the row of all linear indices. -/
theorem ownsBit_linear_iff {f : PixFormat} {p : Packing} (hp : packingOf f = some p) (index a : Nat) {k : Nat}
    (hk : k < 8) : OwnsBit f 0 index 0 a k ↔ index = a * p.ppb + slotOf p k := by
  obtain ⟨-, -, hbits, -, hppb⟩ := packingOf_fields hp
  rw [ownsBit_of_place (placeOf_linear_packing hp index), ← hbits,
    slotShift_field_iff hp (Nat.mod_lt index hppb) hk]
  constructor
  · rintro ⟨rfl, hslot⟩
    rw [← hslot, Nat.div_add_mod']
  · rintro rfl
    rw [Nat.mul_add_mod_self_right, Nat.mod_eq_of_lt (slotOf_lt hp hk), Nat.add_comm,
      Nat.add_mul_div_right _ _ hppb, Nat.div_eq_of_lt (slotOf_lt hp hk), Nat.zero_add]
    exact ⟨rfl, rfl⟩

/-! ## Masks and the replicated byte (R132) -/

theorem getLsbD_foldl_or (g : Nat → Byte) (l : List Nat) (b : Byte) (k : Nat) :
    (l.foldl (fun acc i => acc ||| g i) b).getLsbD k = true ↔
      b.getLsbD k = true ∨ ∃ i ∈ l, (g i).getLsbD k = true := by
  induction l generalizing b with
  | nil => simp
  | cons i rest ih => simp [ih, or_assoc]

/-- The edge mask of slots `s0` to `s1` has the bits of those slots. -/
theorem getLsbD_edgeMask {f : PixFormat} {p : Packing} (hp : packingOf f = some p) (s0 : Nat) {s1 k : Nat}
    (hs1 : s1 < p.ppb) (hk : k < 8) :
    (edgeMask p s0 s1).getLsbD k = true ↔ s0 ≤ slotOf p k ∧ slotOf p k ≤ s1 := by
  obtain ⟨-, -, -, hmax, -⟩ := packingOf_fields hp
  have hfield (slot : Nat) (hslot : slot < p.ppb) :
      (BitVec.ofNat 8 p.cmax <<< slotShift p slot).getLsbD k = true ↔ slot = slotOf p k := by
    rw [← slotShift_field_iff hp hslot hk, hmax, BitVec.getLsbD_shiftLeft]
    by_cases hlow : slotShift p slot ≤ k
    · rw [getLsbD_fieldMask _ _ (by omega)]
      simp only [hk, decide_true, Bool.true_and, Bool.and_eq_true, Bool.not_eq_true', decide_eq_false_iff_not,
        decide_eq_true_eq]
      omega
    · simp [hlow, Nat.lt_of_not_le hlow]
  rw [edgeMask, forRange_eq_foldl, getLsbD_foldl_or]
  constructor
  · rintro (hzero | ⟨slot, hmem, hbit⟩)
    · simp at hzero
    · rw [List.mem_range'_1] at hmem
      rw [hfield slot (by omega)] at hbit
      omega
  · rintro ⟨hlow, hhigh⟩
    exact .inr ⟨slotOf p k, List.mem_range'_1.mpr (by omega), (hfield _ (by omega)).mpr rfl⟩

/-- The replicated byte has the masked colour in every slot. -/
theorem getLsbD_replicated {f : PixFormat} {p : Packing} (hp : packingOf f = some p) (c : Colour) {k : Nat}
    (hk : k < 8) : (replicated p c).getLsbD k = c.getLsbD (k % formatBits f) := by
  have hspread : ∀ v < 2 ^ formatBits f, ∀ k < 8,
      (BitVec.ofNat 8 (v * p.spread)).getLsbD k = v.testBit (k % formatBits f) := by
    cases f <;> cases hp <;> decide
  obtain ⟨-, -, hbits, hmax, -⟩ := packingOf_fields hp
  have hpos : 0 < formatBits f := by cases f <;> decide
  rw [replicated, hmax, hbits, Nat.and_two_pow_sub_one_eq_mod, hspread _ (Nat.mod_lt _ (Nat.two_pow_pos _)) k hk,
    Nat.testBit_mod_two_pow, decide_eq_true (Nat.mod_lt k hpos), Bool.true_and]
  rfl

/-! ## One run (R132) -/

/-- Numbers with remainders compare as the pairs of quotient and remainder do. -/
theorem mul_add_le_mul_add_iff {n a b r t : Nat} (hr : r < n) (ht : t < n) :
    a * n + r ≤ b * n + t ↔ a < b ∨ a = b ∧ r ≤ t := by
  obtain hlt | rfl | hgt := Nat.lt_trichotomy a b
  · have hmul := Nat.mul_le_mul_right n (Nat.succ_le_of_lt hlt)
    rw [Nat.succ_mul] at hmul
    omega
  · omega
  · have hmul := Nat.mul_le_mul_right n (Nat.succ_le_of_lt hgt)
    rw [Nat.succ_mul] at hmul
    omega

/-- A run ends inside a byte when its last pixel is not in the last slot. -/
theorem mod_ne_zero_iff_pred_mod {n p : Nat} (hn : 0 < n) (hp : 0 < p) : p % n ≠ 0 ↔ (p - 1) % n < n - 1 := by
  obtain ⟨i, rfl⟩ := Nat.exists_eq_add_of_lt hp
  have hlt := Nat.mod_lt i hn
  have hmod : (i + 1) % n = (i % n + 1) % n := (Nat.mod_add_mod i n 1).symm
  rw [Nat.zero_add, Nat.add_sub_cancel, hmod]
  by_cases hlast : i % n + 1 = n
  · rw [hlast, Nat.mod_self]
    omega
  · rw [Nat.mod_eq_of_lt (by omega)]
    omega

/-- The bits of a run: from the slot of its first pixel in the first byte to that of its last pixel in the last. -/
theorem runOwnsBit_iff {f : PixFormat} {p : Packing} (hp : packingOf f = some p) {p0 p1 : Nat} (hrun : p0 < p1)
    (a : Nat) {k : Nat} (hk : k < 8) :
    (∃ index, p0 ≤ index ∧ index < p1 ∧ OwnsBit f 0 index 0 a k) ↔
      (p0 / p.ppb < a ∨ p0 / p.ppb = a ∧ p0 % p.ppb ≤ slotOf p k) ∧
      (a < (p1 - 1) / p.ppb ∨ a = (p1 - 1) / p.ppb ∧ slotOf p k ≤ (p1 - 1) % p.ppb) := by
  obtain ⟨-, -, -, -, hppb⟩ := packingOf_fields hp
  have hslot := slotOf_lt hp hk
  rw [← mul_add_le_mul_add_iff (Nat.mod_lt p0 hppb) hslot, ← mul_add_le_mul_add_iff hslot (Nat.mod_lt _ hppb),
    Nat.div_add_mod', Nat.div_add_mod', Nat.le_sub_one_iff_lt (by omega)]
  simp only [ownsBit_linear_iff hp _ a hk]
  exact ⟨fun ⟨_, hlow, hhigh, hindex⟩ => hindex ▸ ⟨hlow, hhigh⟩, fun ⟨hlow, hhigh⟩ => ⟨_, hlow, hhigh, rfl⟩⟩

/-- The fast path of a run paints the bits of the run's pixels: the patched ends have the slots of their masks, the
bytes between them are whole. -/
theorem fastRun_painted {f : PixFormat} {p : Packing} (hp : packingOf f = some p) {p0 p1 : Nat} (hrun : p0 < p1)
    (big : Bool) (c : Colour) (m : Memory) :
    Painted (fun a k => ∃ index, p0 ≤ index ∧ index < p1 ∧ OwnsBit f 0 index 0 a k) (paintBit f big c) m
      (fastRun p p0 p1 c m) := by
  obtain ⟨hpacked, -, -, -, hppb⟩ := packingOf_fields hp
  have hrep (a k : Nat) (hk : k < 8) : (replicated p c).getLsbD k = paintBit f big c a k :=
    (getLsbD_replicated hp c hk).trans (paintBit_packed hpacked big c a k).symm
  have hlast : (p1 - 1) % p.ppb < p.ppb := Nat.mod_lt _ hppb
  have hends : p0 / p.ppb ≤ (p1 - 1) / p.ppb := Nat.div_le_div_right (by omega)
  have htrail := mod_ne_zero_iff_pred_mod hppb (show 0 < p1 by omega)
  unfold fastRun
  by_cases hone : p0 / p.ppb = (p1 - 1) / p.ppb
  · rw [if_pos hone]
    refine (patchByte_painted (hrep _) _ m).congr fun a k hk => ?_
    rw [runOwnsBit_iff hp hrun a hk, getLsbD_edgeMask hp _ hlast hk]
    omega
  · simp only [if_neg hone, decide_eq_true_eq]
    refine ((((patchByte_painted (hrep _) _ m).ite).trans ((patchByte_painted (hrep _) _ _).ite)).trans
      (Painted.forRange _ _ _ fun b _ _ n => write_painted (hrep b) n)).congr fun a k hk => ?_
    have hslot := slotOf_lt hp hk
    rw [runOwnsBit_iff hp hrun a hk, getLsbD_edgeMask hp _ (by omega) hk, getLsbD_edgeMask hp _ hlast hk]
    simp only [exists_eq_right_right']
    split <;> split <;> omega

/-- In the row-major formats a pixel owns the bits that its linear index owns in one long row. -/
theorem ownsBit_eq_linear {f : PixFormat} {stride : Nat} (hrow : f ≠ .m1c)
    (aligned : stride % formatGranularity f = 0) (x y a k : Nat) :
    OwnsBit f stride x y a k ↔ OwnsBit f 0 (x + y * stride) 0 a k := by
  unfold OwnsBit
  rw [placeOf_eq_linear hrow aligned]

/-- The row by row fast path paints the bits of the rectangle's pixels. -/
theorem fastRows_painted {f : PixFormat} {p : Packing} (hp : packingOf f = some p) {stride : Nat}
    (aligned : stride % formatGranularity f = 0) (x y : Nat) {w : Nat} (hw : 0 < w) (h : Nat) (big : Bool) (c : Colour)
    (m : Memory) :
    Painted (RectOwnsBit f stride x y w h) (paintBit f big c) m (fastRows p stride x y w h c m) := by
  obtain ⟨-, hrow, -⟩ := packingOf_fields hp
  refine (Painted.forRange y h m fun yy _ _ n => fastRun_painted hp (by omega) big c n).congr fun a k _ => ⟨?_, ?_⟩
  · rintro ⟨xx, yy, ⟨hx, hxw, hy, hyh⟩, ho⟩
    exact ⟨yy, hy, hyh, _, by omega, by omega, (ownsBit_eq_linear hrow aligned ..).mp ho⟩
  · rintro ⟨yy, hy, hyh, index, hlow, hhigh, ho⟩
    refine ⟨index - yy * stride, yy, by omega, (ownsBit_eq_linear hrow aligned ..).mpr ?_⟩
    rwa [Nat.sub_add_cancel (by omega)]

/-- Settles O41: the fast path paints the same bits as the fill (`fastRows_painted`, `fillPixels_painted`), with the
same values. -/
theorem fillSubByteRows : Obligations.FillSubByteRows := by
  intro f p x y w h c s hp aligned top
  refine ⟨pfillVariant_checksFill f x y w h c s, fun hvalid hw hh hin =>
    ⟨_, pfillVariant_of_inside hvalid hw hh hin c, ?_⟩⟩
  exact (fillPixels_painted f _ _ _ _ _ s.bigEndian c _).read_unique
    (fastRows_painted hp aligned _ _ (toNat_pos_of_ne_zero hw) _ _ c _)

/-! ## Bands (R133) -/

/-- The mask of a band that the rectangle touches has the bits of the rows inside. -/
theorem getLsbD_bandMask {y h band k : Nat} (hh : 0 < h) (hfirst : y / 8 ≤ band) (hlast : band ≤ (y + h - 1) / 8)
    (hk : k < 8) : (bandMask y h band).getLsbD k = true ↔ y ≤ 8 * band + k ∧ 8 * band + k < y + h := by
  simp only [bandMask, BitVec.getLsbD_ofNat, hk, decide_true, Bool.true_and, Nat.testBit_mul_two_pow,
    Nat.testBit_two_pow_sub_one, Bool.and_eq_true, decide_eq_true_eq]
  omega

/-- One byte of a band, written whole or patched, takes the colour in the bits of the band's mask. -/
theorem bandByte_painted {paint : Nat → Nat → Bool} {rep : Byte} {a : Nat}
    (hrep : ∀ k, k < 8 → rep.getLsbD k = paint a k) (mask : Byte) (m : Memory) :
    Painted (fun a' k => a' = a ∧ mask.getLsbD k = true) paint m
      (if mask = 0xFF then m.write a rep else patchByte rep mask a m) := by
  split
  case isTrue hwhole =>
    subst hwhole
    refine (write_painted hrep m).congr fun a' k hk => and_iff_left ?_
    interval_cases k <;> rfl
  case isFalse => exact patchByte_painted hrep mask m

/-- A bit of a column-major byte belongs to one column and one row (R93). -/
theorem ownsBit_column_iff (stride xx yy a k : Nat) :
    OwnsBit .m1c stride xx yy a k ↔ a = yy / 8 * stride + xx ∧ k = yy % 8 := by
  rw [ownsBit_of_place (f := .m1c) rfl, formatBits]
  omega

/-- The band by band fast path paints the bits of the rectangle's pixels. -/
theorem fastBands_painted (stride x y w : Nat) {h : Nat} (hh : 0 < h) (big : Bool) (c : Colour) (m : Memory) :
    Painted (RectOwnsBit .m1c stride x y w h) (paintBit .m1c big c) m (fastBands stride x y w h c m) := by
  have hrep (a k : Nat) (hk : k < 8) :
      (if c.getLsbD 0 then 0xFF else 0x00 : Byte).getLsbD k = paintBit .m1c big c a k := by
    rw [paintBit_packed (by decide), formatBits, Nat.mod_one]
    cases c.getLsbD 0 <;> interval_cases k <;> rfl
  refine (Painted.forRange _ _ m fun band _ _ n => Painted.forRange x w n fun xx _ _ n' =>
    bandByte_painted (hrep (band * stride + xx)) (bandMask y h band) n').congr fun a k hk => ⟨?_, ?_⟩
  · rintro ⟨xx, yy, ⟨hx, hxw, hy, hyh⟩, ho⟩
    obtain ⟨ha, hbit⟩ := (ownsBit_column_iff ..).mp ho
    exact ⟨yy / 8, by omega, by omega, xx, hx, hxw, ha,
      (getLsbD_bandMask hh (by omega) (by omega) hk).mpr (by omega)⟩
  · rintro ⟨band, hfirst, hlast, xx, hx, hxw, ha, hmask⟩
    obtain ⟨hy, hyh⟩ := (getLsbD_bandMask hh hfirst (by omega) hk).mp hmask
    refine ⟨xx, 8 * band + k, ⟨hx, hxw, hy, hyh⟩, (ownsBit_column_iff ..).mpr ⟨?_, by omega⟩⟩
    rw [ha, show (8 * band + k) / 8 = band by omega]

/-- Settles O43: as for the rows, the fast path of the bands paints the same bits as the fill (`fastBands_painted`). -/
theorem fillColumnBands : Obligations.FillColumnBands := by
  intro x y w h c s
  refine ⟨pfillVariant_checksFill .m1c x y w h c s, fun hvalid hw hh hin =>
    ⟨_, pfillVariant_of_inside (f := .m1c) hvalid hw hh hin c, ?_⟩⟩
  exact (fillPixels_painted .m1c _ _ _ _ _ s.bigEndian c _).read_unique
    (fastBands_painted _ _ _ _ (toNat_pos_of_ne_zero hh) _ c _)

end Sys2Proof.Machine
end

section
/-! GSIZE and GSAMP (43_glyph_sampler.md R142 to R151): where the rows and samples of a bitmap lie, in each depth's own
spelling, and what the two commands answer at a depth. -/

namespace Sys2Proof.Machine

/-! ## Rows and samples in the spec's spelling (R140, R141) -/

theorem glyphRowBytes_one (width : Nat) : glyphRowBytes 1 width = (width + 7) / 8 := by
  unfold glyphRowBytes ceilDiv
  omega

theorem glyphRowBytes_two (width : Nat) : glyphRowBytes 2 width = (width + 3) / 4 := by
  unfold glyphRowBytes ceilDiv
  omega

theorem glyphRowBytes_four (width : Nat) : glyphRowBytes 4 width = (width + 1) / 2 := by
  unfold glyphRowBytes ceilDiv
  omega

theorem glyphRowBytes_eight (width : Nat) : glyphRowBytes 8 width = width := by
  unfold glyphRowBytes ceilDiv
  omega

/-- A sample takes at most one byte, so a row has at most one byte for each column. -/
theorem glyphRowBytes_le_width (d : Depth) (width : Nat) : glyphRowBytes d.bits width ≤ width := by
  cases d <;> simp only [glyphRowBytes, ceilDiv, Depth.bits] <;> omega

theorem sampleByte_one (width offset x y : Nat) :
    sampleByte 1 width offset x y = offset + y * ((width + 7) / 8) + (x >>> 3) := by
  rw [sampleByte, glyphRowBytes_one, shiftRight_three]

theorem sampleByte_two (width offset x y : Nat) :
    sampleByte 2 width offset x y = offset + y * ((width + 3) / 4) + (x >>> 2) := by
  rw [sampleByte, glyphRowBytes_two, shiftRight_two]

theorem sampleByte_four (width offset x y : Nat) :
    sampleByte 4 width offset x y = offset + y * ((width + 1) / 2) + (x >>> 1) := by
  rw [sampleByte, glyphRowBytes_four, shiftRight_one]

theorem sampleByte_eight (width offset x y : Nat) :
    sampleByte 8 width offset x y = offset + y * width + x := by
  rw [sampleByte, glyphRowBytes_eight, Nat.div_self (by decide), Nat.div_one]

/-- A sample is read as a packed pixel is: the field of its slot, from the least significant end (R141). -/
theorem sampleValue_eq_load (bits x byte : Nat) (big : Bool) (m : Memory) :
    (sampleValue bits x (m.read byte)).setWidth 32 =
      (Place.bits byte (x % (8 / bits) * bits) (2 ^ bits - 1)).load big m :=
  rfl

/-! ## GSIZE (R142 to R145) -/

/-- GSIZE of a configured glyph answers the bytes of a row times the rows, which are both at most 255. -/
theorem gsizeVariant_answers {s : State} (hvalid : s.gValid = true) (d : Depth) :
    ∃ v, AnswersOnly (gsizeVariant d) s v ∧
      v.toNat = glyphRowBytes d.bits s.gWidth.toNat * s.gHeight.toNat ∧ v.toNat ≤ 65025 := by
  have hmax : glyphRowBytes d.bits s.gWidth.toNat * s.gHeight.toNat ≤ 255 * 255 :=
    Nat.mul_le_mul ((glyphRowBytes_le_width d _).trans (Nat.le_of_lt_succ s.gWidth.isLt))
      (Nat.le_of_lt_succ s.gHeight.isLt)
  have hvalue : (BitVec.ofNat 32 (glyphRowBytes d.bits s.gWidth.toNat * s.gHeight.toNat)).toNat =
      glyphRowBytes d.bits s.gWidth.toNat * s.gHeight.toNat := by
    rw [BitVec.toNat_ofNat, Nat.mod_eq_of_lt (by omega)]
  refine ⟨_, ?_, hvalue, hvalue.trans_le hmax⟩
  obtain ⟨hclear, -⟩ | ⟨-, hanswer⟩ := glyphSize_cases d s
  · simp [hvalid] at hclear
  · exact (exec_gsizeVariant d s).trans (congrArg Host.Outcome.next hanswer)

/-- Settles O47: each depth answers its rows in bytes (`gsizeVariant_answers`), which is the quotient its rule gives,
and the gate is the same at every depth (`gsizeVariant_faults`). -/
theorem gsizeAnswers : Obligations.GsizeAnswers := by
  refine ⟨fun s hvalid => ?_, fun s hclear => ⟨gsizeVariant_faults hclear .d1, gsizeVariant_faults hclear .d2,
    gsizeVariant_faults hclear .d4, gsizeVariant_faults hclear .d8⟩⟩
  obtain ⟨v1, hanswer1, hsize1, hmax1⟩ := gsizeVariant_answers hvalid .d1
  obtain ⟨v2, hanswer2, hsize2, hmax2⟩ := gsizeVariant_answers hvalid .d2
  obtain ⟨v4, hanswer4, hsize4, hmax4⟩ := gsizeVariant_answers hvalid .d4
  obtain ⟨v8, hanswer8, hsize8, hmax8⟩ := gsizeVariant_answers hvalid .d8
  rw [Depth.bits, glyphRowBytes_one] at hsize1
  rw [Depth.bits, glyphRowBytes_eight] at hsize8
  refine ⟨⟨v1, hanswer1, hsize1, hmax1⟩, ⟨v2, hanswer2, ?_, ?_, hmax2⟩, ⟨v4, hanswer4, ?_, ?_, hmax4⟩,
    ⟨v8, hanswer8, hsize8, hmax8⟩⟩
  · rw [hsize2, Nat.mul_comm 2]; rfl
  · rw [hsize2, Depth.bits, glyphRowBytes_two]
  · rw [hsize4, Nat.mul_comm 4]; rfl
  · rw [hsize4, Depth.bits, glyphRowBytes_four]

/-! ## GSAMP (R146 to R151) -/

section
variable {d : Depth} {x y : BitVec 16} {s : State} {byte : Nat}
  (hbyte : sampleByte d.bits s.gWidth.toNat s.gOffset.toNat x.toNat y.toNat = byte)
include hbyte

theorem gsampVariant_checksSample : ChecksSample (gsampVariant d x y) s x y byte := by
  subst hbyte
  refine ⟨fun hclear => gsampVariant_faults hclear d x y, ?_⟩
  rw [faults_iff, faults_iff, exec_gsampVariant]
  obtain ⟨hclear, -⟩ | ⟨-, hrange, e⟩ | ⟨-, hx, hy, -, e⟩ | ⟨-, hx, hy, hin, -⟩ := sampleGlyph_cases d x y s
  · simp [hclear]
  · exact ⟨fun _ _ => by rw [e], fun _ _ _ => by omega⟩
  · exact ⟨fun _ _ => by omega, fun _ _ _ _ => by rw [e]⟩
  · exact ⟨fun _ _ => by omega, fun _ _ _ _ => by omega⟩

/-- A GSAMP that passes its checks answers the field of the sample's byte at `shift`, the remainder's place in it. -/
theorem gsampVariant_answers {shift : Nat} (hshift : x.toNat % (8 / d.bits) * d.bits = shift)
    (hvalid : s.gValid = true) (hx : x.toNat < s.gWidth.toNat) (hy : y.toNat < s.gHeight.toNat)
    (hin : byte < s.gLen.toNat) :
    ∃ v, AnswersOnly (gsampVariant d x y) s v ∧
      v.toNat = ((s.gly.read byte).toNat >>> shift) &&& (2 ^ d.bits - 1) := by
  subst hbyte hshift
  obtain ⟨hclear, -⟩ | ⟨-, hrange, -⟩ | ⟨-, -, -, hout, -⟩ | ⟨-, -, -, -, hanswer⟩ := sampleGlyph_cases d x y s
  · simp [hvalid] at hclear
  · omega
  · omega
  · refine ⟨_, (exec_gsampVariant d x y s).trans (congrArg Host.Outcome.next hanswer), ?_⟩
    rw [sampleValue_eq_load _ _ _ s.bigEndian]
    exact Place.toNat_load_bits _ _ (by cases d <;> decide) _ _

end

/-- Settles O48: every depth checks its sample (`gsampVariant_checksSample`) and answers the field at the remainder's
shift (`gsampVariant_answers`); the depth's rule spells the byte (`sampleByte_one` to `sampleByte_eight`), the
remainder and the mask. -/
theorem gsampAnswers : Obligations.GsampAnswers := by
  intro x y s W O byte1 byte2 byte4 byte8
  have hbyte1 : sampleByte Depth.d1.bits W O x.toNat y.toNat = byte1 := sampleByte_one ..
  have hbyte2 : sampleByte Depth.d2.bits W O x.toNat y.toNat = byte2 := sampleByte_two ..
  have hbyte4 : sampleByte Depth.d4.bits W O x.toNat y.toNat = byte4 := sampleByte_four ..
  have hbyte8 : sampleByte Depth.d8.bits W O x.toNat y.toNat = byte8 := sampleByte_eight ..
  refine ⟨gsampVariant_checksSample hbyte1, gsampVariant_checksSample hbyte2, gsampVariant_checksSample hbyte4,
    gsampVariant_checksSample hbyte8, fun hvalid hx hy => ⟨fun hin => ?_, fun hin => ?_, fun hin => ?_, fun hin => ?_⟩⟩
  · exact gsampVariant_answers hbyte1 (by rw [and_seven]; exact Nat.mul_one _) hvalid hx hy hin
  · exact gsampVariant_answers hbyte2 (by rw [and_three, Nat.shiftLeft_eq]; rfl) hvalid hx hy hin
  · exact gsampVariant_answers hbyte4 (by rw [and_one, Nat.shiftLeft_eq]; rfl) hvalid hx hy hin
  · obtain ⟨v, hanswer, hv⟩ := gsampVariant_answers (shift := 0) hbyte8 (by simp [Depth.bits, Nat.mod_one])
      hvalid hx hy hin
    exact ⟨v, hanswer, hv.trans (Nat.and_two_pow_sub_one_of_lt_two_pow (s.gly.read byte8).isLt)⟩

end Sys2Proof.Machine
end

section
/-! BLEND (44_alpha_blend.md R160 to R173): the interpolation as an average of its two inputs weighted by the coverage,
then what the checks and the answer of BLEND are in every format, and the colour the answer holds. -/

namespace Sys2Proof.Machine

/-! ## The weighted sum and its quotient (R162) -/

section
variable {amax a b m F G : Nat}

/-- Weights that add up to `amax` give a sum of at most `amax` times an upper bound of both inputs. -/
theorem weighted_le (hF : F ≤ m) (hG : G ≤ m) (ha : a ≤ amax) :
    F * a + G * (amax - a) ≤ m * amax :=
  calc F * a + G * (amax - a) ≤ m * a + m * (amax - a) := by gcongr
    _ = m * amax := by rw [← Nat.mul_add, Nat.add_sub_cancel' ha]

/-- Weights that add up to `amax` give a sum of at least `amax` times a lower bound of both inputs. -/
theorem le_weighted (hF : m ≤ F) (hG : m ≤ G) (ha : a ≤ amax) :
    m * amax ≤ F * a + G * (amax - a) :=
  calc m * amax = m * a + m * (amax - a) := by rw [← Nat.mul_add, Nat.add_sub_cancel' ha]
    _ ≤ F * a + G * (amax - a) := by gcongr

theorem lerp_zero (hpos : 0 < amax) : lerp amax 0 F G = G := by
  rw [lerp, Nat.mul_zero, Nat.zero_add, Nat.sub_zero, Nat.mul_div_cancel _ hpos]

theorem lerp_full (hpos : 0 < amax) : lerp amax amax F G = F := by
  rw [lerp, Nat.sub_self, Nat.mul_zero, Nat.add_zero, Nat.mul_div_cancel _ hpos]

/-- Interpolating between `0` and `amax` gives the coverage back. -/
theorem lerp_full_scale (hpos : 0 < amax) : lerp amax a amax 0 = a := by
  rw [lerp, Nat.zero_mul, Nat.add_zero, Nat.mul_div_cancel_left _ hpos]

/-- Exchanging the two inputs is complementing the coverage. -/
theorem lerp_complement (ha : a ≤ amax) : lerp amax (amax - a) F G = lerp amax a G F := by
  rw [lerp, lerp, Nat.sub_sub_self ha, Nat.add_comm]

theorem lerp_le (hF : F ≤ m) (hG : G ≤ m) (ha : a ≤ amax) : lerp amax a F G ≤ m :=
  Nat.div_le_of_le_mul ((weighted_le hF hG ha).trans_eq (Nat.mul_comm m amax))

theorem le_lerp (hpos : 0 < amax) (hF : m ≤ F) (hG : m ≤ G) (ha : a ≤ amax) : m ≤ lerp amax a F G :=
  (Nat.le_div_iff_mul_le hpos).mpr (le_weighted hF hG ha)

/-- A mix of two values below a bound is below it, so an interpolated field fits its field (R164). -/
theorem lerp_lt (hF : F < m) (hG : G < m) (ha : a ≤ amax) : lerp amax a F G < m :=
  Nat.lt_of_le_pred (Nat.zero_lt_of_lt hF) (lerp_le (Nat.le_pred_of_lt hF) (Nat.le_pred_of_lt hG) ha)

/-- More coverage moves weight from the smaller input to the larger one. -/
theorem lerp_mono (hGF : G ≤ F) (hab : a ≤ b) (hb : b ≤ amax) : lerp amax a F G ≤ lerp amax b F G := by
  obtain ⟨moved, rfl⟩ := Nat.exists_eq_add_of_le hab
  refine Nat.div_le_div_right ?_
  calc F * a + G * (amax - a) = F * a + G * (moved + (amax - (a + moved))) := by
        rw [show amax - a = moved + (amax - (a + moved)) by omega]
    _ = F * a + G * moved + G * (amax - (a + moved)) := by rw [Nat.mul_add, Nat.add_assoc]
    _ ≤ F * a + F * moved + G * (amax - (a + moved)) := by gcongr
    _ = F * (a + moved) + G * (amax - (a + moved)) := by rw [Nat.mul_add]

/-- The same law for the complementary coverage. -/
theorem lerp_antitone (hFG : F ≤ G) (hab : a ≤ b) (hb : b ≤ amax) : lerp amax b F G ≤ lerp amax a F G := by
  rw [← lerp_complement hb, ← lerp_complement (hab.trans hb)]
  exact lerp_mono hFG (Nat.sub_le_sub_left hab amax) (Nat.sub_le amax a)

end

/-- Settles O53: the interpolation is a quotient of a weighted sum, bounded by `weighted_le` and `le_weighted`, and
monotonic by `lerp_mono`; of the four `amax` only `0 < amax ≤ 255` matters. -/
theorem lerpProperties : Obligations.LerpProperties := by
  intro amax hdepth F G
  have hpos : 0 < amax := by omega
  have hmax : amax ≤ 255 := by omega
  refine ⟨lerp_zero hpos, lerp_full hpos, fun a ha => ⟨rfl, ?_, ?_, fun hF hG => ?_, lerp_full_scale hpos⟩,
    fun a b hab hb => ⟨fun hGF => lerp_mono hGF hab hb, fun hFG => lerp_antitone hFG hab hb⟩⟩
  · exact le_lerp hpos (Nat.min_le_left F G) (Nat.min_le_right F G) ha
  · exact lerp_le (Nat.le_max_left F G) (Nat.le_max_right F G) ha
  · exact (weighted_le (Nat.le_of_lt_succ hF) (Nat.le_of_lt_succ hG) ha).trans (Nat.mul_le_mul_left 65535 hmax)

/-! ## The checks and the answer of BLEND (R160, R173) -/

/-- A number is a depth exactly when it is one of the four. -/
theorem exists_ofBits_iff (n : Nat) : (∃ d, Depth.ofBits n = some d) ↔ n = 1 ∨ n = 2 ∨ n = 4 ∨ n = 8 := by
  rw [← Option.ne_none_iff_exists', ne_eq, ofBits_eq_none_iff, not_not]

/-- The largest coverage in the spelling of the operand `bpp`. -/
theorem coverageMax_of_ofBits {n : Nat} {d : Depth} (hd : Depth.ofBits n = some d) : coverageMax d = 2 ^ n - 1 := by
  rw [(ofBits_eq_some_iff n d).mp hd, coverageMax]

/-- Every depth has a coverage above 0. -/
theorem two_pow_depth_sub_one_pos {n : Nat} (hdepth : n = 1 ∨ n = 2 ∨ n = 4 ∨ n = 8) : 0 < 2 ^ n - 1 := by
  obtain rfl | rfl | rfl | rfl := hdepth <;> decide

section
variable (f : PixFormat) {bpp a : BitVec 8} (fg bg : Colour) {s : State}

theorem blendVariant_checksBlend (bpp a : BitVec 8) (s : State) :
    ChecksBlend (blendVariant f bpp a fg bg) s bpp a := by
  rw [ChecksBlend, faults_iff, faults_iff, faults_iff, exec_blendVariant, ← exists_ofBits_iff]
  obtain ⟨hd, e⟩ | ⟨d, hd, hclear, e⟩ | ⟨d, hd, hset, hover, e⟩ | ⟨d, hd, hset, hin, -⟩ :=
    blendColours_cases (blendOf f) bpp a fg bg s
  · simp [hd, e]
  · simp [hd, hclear, e]
  · simp [hd, hset, e]
  · rw [coverageMax_of_ofBits hd] at hin
    simp [hd, hset, hin]

/-- A BLEND that passes its checks answers the colour of the format's blend function, zero-extended. -/
theorem blendVariant_answers (hset : s.pfValid = true)
    (hdepth : bpp.toNat = 1 ∨ bpp.toNat = 2 ∨ bpp.toNat = 4 ∨ bpp.toNat = 8) (ha : a.toNat ≤ 2 ^ bpp.toNat - 1) :
    ∃ v, AnswersOnly (blendVariant f bpp a fg bg) s v ∧
      v.toNat = (blendOf f (2 ^ bpp.toNat - 1) a.toNat fg bg).toNat := by
  obtain ⟨d, hd⟩ := (exists_ofBits_iff _).mpr hdepth
  obtain ⟨hnone, -⟩ | ⟨_, -, hclear, -⟩ | ⟨d', hd', -, hover, -⟩ | ⟨d', hd', -, -, hanswer⟩ :=
    blendColours_cases (blendOf f) bpp a fg bg s
  · simp [hd] at hnone
  · simp [hset] at hclear
  · rw [coverageMax_of_ofBits hd'] at hover
    omega
  · rw [coverageMax_of_ofBits hd'] at hanswer
    exact ⟨_, (exec_blendVariant f bpp a fg bg s).trans (congrArg Host.Outcome.next hanswer),
      BitVec.toNat_setWidth_of_le (by decide)⟩

end

/-! ## One channel (R163) -/

theorem blendOf_of_ne_rgb565 {f : PixFormat} (hf : f ≠ .rgb565) : blendOf f = blendSingle (formatMax f) := by
  cases f with
  | rgb565 => exact absurd rfl hf
  | _ => rfl

/-- The clamp keeps the intermediate values inside a colour, so nothing is cut off. -/
theorem toNat_blendSingle {cm : Nat} (hcm : cm < 65536) (amax a : Nat) (fg bg : Colour) :
    (blendSingle cm amax a fg bg).toNat =
      if a = 0 then bg.toNat else if a = amax then fg.toNat else min (lerp amax a fg.toNat bg.toNat) cm := by
  rw [blendSingle]
  split_ifs
  · rfl
  · rfl
  · rw [BitVec.toNat_ofNat, Nat.mod_eq_of_lt ((Nat.min_le_right _ cm).trans_lt hcm)]

/-- Settles O51: the checks are those of every format (`blendVariant_checksBlend`), the answer is the format's blend
function (`blendVariant_answers`), which is `blendSingle` at the format's largest colour. -/
theorem blendSingleChannel : Obligations.BlendSingleChannel := by
  intro f cm bpp a fg bg s hformat
  obtain ⟨hf, rfl, hcm⟩ : f ≠ .rgb565 ∧ cm = formatMax f ∧ cm < 65536 := by
    revert hformat
    cases f <;> simp +contextual [formatMax, formatBits]
  refine ⟨blendVariant_checksBlend f fg bg bpp a s, fun hset hdepth ha => ?_⟩
  obtain ⟨v, hanswer, hv⟩ := blendVariant_answers f fg bg hset hdepth ha
  exact ⟨v, hanswer, by rw [hv, blendOf_of_ne_rgb565 hf, toNat_blendSingle hcm]; rfl⟩

/-! ## Three fields (R164) -/

theorem toNat_redField (c : Colour) : (c.extractLsb' 11 5).toNat = c.toNat / 2048 := by
  rw [BitVec.extractLsb'_toNat, Nat.shiftRight_eq_div_pow]
  omega

theorem toNat_greenField (c : Colour) : (c.extractLsb' 5 6).toNat = c.toNat / 32 % 64 := by
  rw [BitVec.extractLsb'_toNat, Nat.shiftRight_eq_div_pow]

theorem toNat_blueField (c : Colour) : (c.extractLsb' 0 5).toNat = c.toNat % 32 := by
  rw [BitVec.extractLsb'_toNat, Nat.shiftRight_zero]

/-- Three numbers that fit their fields are put together without a carry. -/
theorem toNat_append_fields {r g b : Nat} (hr : r < 32) (hg : g < 64) (hb : b < 32) :
    (BitVec.ofNat 5 r ++ BitVec.ofNat 6 g ++ BitVec.ofNat 5 b : BitVec 16).toNat = r * 2048 + g * 32 + b := by
  rw [BitVec.toNat_append, BitVec.toNat_append, BitVec.toNat_ofNat, BitVec.toNat_ofNat, BitVec.toNat_ofNat,
    Nat.mod_eq_of_lt hr, Nat.mod_eq_of_lt hg, Nat.mod_eq_of_lt hb,
    ← Nat.shiftLeft_add_eq_or_of_lt (show g < 2 ^ 6 from hg),
    ← Nat.shiftLeft_add_eq_or_of_lt (show b < 2 ^ 5 from hb), Nat.shiftLeft_eq, Nat.shiftLeft_eq]
  omega

theorem toNat_blendFields {amax a : Nat} (ha : a ≤ amax) (fg bg : Colour) :
    (blendFields amax a fg bg).toNat = lerp amax a (fg.toNat / 2048) (bg.toNat / 2048) * 2048 +
      lerp amax a (fg.toNat / 32 % 64) (bg.toNat / 32 % 64) * 32 + lerp amax a (fg.toNat % 32) (bg.toNat % 32) := by
  have hfit (start width : Nat) :
      lerp amax a (fg.extractLsb' start width).toNat (bg.extractLsb' start width).toNat < 2 ^ width :=
    lerp_lt (BitVec.isLt _) (BitVec.isLt _) ha
  rw [blendFields, toNat_append_fields (hfit 11 5) (hfit 5 6) (hfit 0 5)]
  simp only [toNat_redField, toNat_greenField, toNat_blueField]

/-- Settles O52: the checks and the answer are those of every format, each interpolated field fits its width
(`lerp_lt`), and the colour is their sum (`toNat_blendFields`); at an end point the fields are those of one input. -/
theorem blendThreeFields : Obligations.BlendThreeFields := by
  intro bpp a fg bg s amax mix
  refine ⟨blendVariant_checksBlend .rgb565 fg bg bpp a s, fun hset hdepth ha => ?_⟩
  obtain ⟨v, hanswer, hv⟩ := blendVariant_answers .rgb565 fg bg hset hdepth ha
  have hpos : 0 < amax := two_pow_depth_sub_one_pos hdepth
  have hvalue := hv.trans (toNat_blendFields ha fg bg)
  refine ⟨v, hanswer, lerp_lt (by omega) (by omega) ha, lerp_lt (by omega) (by omega) ha,
    lerp_lt (by omega) (by omega) ha, hvalue, fun hzero => ?_, fun hfull => ?_⟩
  · rw [hvalue, hzero, lerp_zero hpos, lerp_zero hpos, lerp_zero hpos]
    omega
  · rw [hvalue, hfull, lerp_full hpos, lerp_full hpos, lerp_full hpos]
    omega

end Sys2Proof.Machine
end

section
/-! Faults (60_exceptions.md R181 to R183): `Verdict` says once that a legal command completes when no cause applies to
it, and otherwise does what R182 says of the first cause that does. The three statements are read off it. -/

namespace Sys2Proof.Machine

/-! ## The first cause that applies (R183) -/

/-- The cause that holds comes, in the order of R183, before every other one that does. -/
structure IsFirst (applies : Cause → Prop) (cause : Cause) : Prop where
  holds : applies cause
  before : ∀ other, applies other → other = cause ∨ cause.rank < other.rank

/-- A check that stands alone. -/
theorem IsFirst.only {a : Cause} {check : Prop} (h : check) : IsFirst (fun cause => cause = a ∧ check) a :=
  ⟨⟨rfl, h⟩, fun _ hother => .inl hother.1⟩

/-- A check that is met comes before those of later rank. -/
theorem IsFirst.head {a : Cause} {check : Prop} {rest : Cause → Prop} (h : check)
    (later : ∀ other, rest other → a.rank < other.rank) :
    IsFirst (fun cause => (cause = a ∧ check) ∨ rest cause) a := by
  refine ⟨.inl ⟨rfl, h⟩, ?_⟩
  rintro other (⟨rfl, -⟩ | hrest)
  · exact .inl rfl
  · exact .inr (later other hrest)

/-- A check that is not met leaves the first of the others. -/
theorem IsFirst.tail {a b : Cause} {check : Prop} {rest : Cause → Prop} (h : ¬ check) (first : IsFirst rest b) :
    IsFirst (fun cause => (cause = a ∧ check) ∨ rest cause) b := by
  refine ⟨.inr first.holds, ?_⟩
  rintro other (⟨-, hcheck⟩ | hrest)
  · exact absurd hcheck h
  · exact first.before other hrest

/-- The first cause is the one of least rank. -/
theorem IsFirst.eq_iff {applies : Cause → Prop} {a : Cause} (first : IsFirst applies a) (cause : Cause) :
    a = cause ↔ applies cause ∧ ∀ other, applies other → cause.rank ≤ other.rank := by
  constructor
  · rintro rfl
    refine ⟨first.holds, fun other hother => ?_⟩
    obtain rfl | hlt := first.before other hother
    · exact Nat.le_refl _
    · exact hlt.le
  · rintro ⟨hcause, hleast⟩
    obtain heq | hlt := first.before cause hcause
    · exact heq.symm
    · exact absurd (hleast a first.holds) (Nat.not_le_of_lt hlt)

/-! ## What a legal command comes to -/

/-- The effect of a fault of a command (R182). -/
def State.faulted (s : State) (m : Mnemonic) (cause : Cause) : State :=
  { s.raise cause with
    pfValid := if cause = .badFormat then false else s.pfValid
    gValid := if cause = .badBpp ∧ m = .cfgg then false else s.gValid }

/-- What a legal command comes to: no cause applies and it answers, or the first one that applies has its effect. -/
inductive Verdict (c : Command) (s : State) : State → Prop where
  | completes {t : State} (value : BitVec 32) (none : ∀ cause, ¬ AppliesTo cause c s)
      (response : t.outbox = s.outbox ++ [responseWord 0 value]) : Verdict c s t
  | faults {t : State} (cause : Cause) (first : IsFirst (AppliesTo · c s) cause)
      (effect : t = s.faulted c.mnemonic cause) : Verdict c s t

theorem configureSurface_verdict (fmt : BitVec 8) (stride : BitVec 16) (len : BitVec 32) (s : State) :
    Verdict (.cfgs fmt stride len) s (configureSurface fmt stride len s) := by
  obtain ⟨habove, e⟩ | ⟨hformat, e⟩ := configureSurface_cases fmt stride len s <;> rw [e]
  · exact .faults .badFormat (.only habove) rfl
  · exact .completes _ (fun _ ⟨_, habove⟩ => Nat.not_le_of_lt habove hformat) rfl

theorem configureGlyph_verdict (bpp width height : BitVec 8) (offset len : BitVec 32) (s : State) :
    Verdict (.cfgg bpp width height offset len) s (configureGlyph bpp width height offset len s) := by
  obtain ⟨hnone, e⟩ | ⟨d, hd, e⟩ := configureGlyph_cases bpp width height offset len s <;> rw [e]
  · exact .faults .badBpp (.only ((ofBits_eq_none_iff _).mp hnone)) rfl
  · exact .completes _ (fun _ ⟨_, hnone⟩ => hnone ((exists_ofBits_iff _).mp ⟨d, hd⟩)) rfl

theorem readRegister_verdict {reg : BitVec 8} (legal : RegisterNumber reg) (s : State) :
    Verdict (.rdreg reg) s (readRegister reg s) := by
  obtain ⟨habove, -⟩ | ⟨-, -, e⟩ | ⟨-, -, e⟩ := readRegister_cases reg s
  · exact absurd legal (Nat.not_le_of_lt habove)
  · rw [e]; exact .completes _ (fun _ => id) rfl
  · rw [e]; exact .completes _ (fun _ => id) rfl

/-- The checks of PSET, PGET and PFILL, in order: the gate, then the window. -/
def PixelChecks (s : State) (outside : Prop) (cause : Cause) : Prop :=
  (cause = .notConfigured ∧ s.pfValid = false) ∨ (cause = .pixAddr ∧ outside)

section
variable {s : State} {outside : Prop}

theorem pixelChecks_gate (hclear : s.pfValid = false) : IsFirst (PixelChecks s outside) .notConfigured :=
  .head hclear (by rintro _ ⟨rfl, -⟩; decide)

theorem pixelChecks_window (hset : s.pfValid = true) (hout : outside) : IsFirst (PixelChecks s outside) .pixAddr :=
  .tail (ne_false_of_eq_true hset) (.only hout)

theorem pixelChecks_pass (hset : s.pfValid = true) (hin : ¬ outside) (cause : Cause) :
    ¬ PixelChecks s outside cause := by
  rintro (⟨-, hclear⟩ | ⟨-, hout⟩)
  · exact ne_false_of_eq_true hset hclear
  · exact hin hout

end

theorem setPixel_verdict (x y : BitVec 16) (c : Colour) (s : State) : Verdict (.pset x y c) s
    (setPixel (placeOf (PixFormat.ofCode s.pfFormat) s.pfStride.toNat x.toNat y.toNat) c s) := by
  obtain ⟨hclear, e⟩ | ⟨hset, hout, e⟩ | ⟨hset, hin, e⟩ :=
    setPixel_cases (placeOf (PixFormat.ofCode s.pfFormat) s.pfStride.toNat x.toNat y.toNat) c s <;> rw [e]
  · exact .faults .notConfigured (pixelChecks_gate hclear) rfl
  · exact .faults .pixAddr (pixelChecks_window hset hout) rfl
  · exact .completes _ (pixelChecks_pass hset (Nat.not_le_of_lt hin)) rfl

theorem getPixel_verdict (x y : BitVec 16) (s : State) : Verdict (.pget x y) s
    (getPixel (placeOf (PixFormat.ofCode s.pfFormat) s.pfStride.toNat x.toNat y.toNat) s) := by
  obtain ⟨hclear, e⟩ | ⟨hset, hout, e⟩ | ⟨hset, hin, e⟩ :=
    getPixel_cases (placeOf (PixFormat.ofCode s.pfFormat) s.pfStride.toNat x.toNat y.toNat) s <;> rw [e]
  · exact .faults .notConfigured (pixelChecks_gate hclear) rfl
  · exact .faults .pixAddr (pixelChecks_window hset hout) rfl
  · exact .completes _ (pixelChecks_pass hset (Nat.not_le_of_lt hin)) rfl

theorem ne_zero_of_toNat_pos {v : BitVec 16} (h : 0 < v.toNat) : v ≠ 0 := by
  rintro rfl
  exact absurd h (by decide)

/-- Some pixel of a rectangle lies beyond the window exactly when it is not empty and its footprint does (R121). -/
theorem exists_pixel_outside_iff (f : PixFormat) (stride len : Nat) (x y w h : BitVec 16) :
    (∃ xx yy, InRect x.toNat y.toNat w.toNat h.toNat xx yy ∧ len ≤ (placeOf f stride xx yy).last) ↔
      w ≠ 0 ∧ h ≠ 0 ∧ len ≤ topOffset (placeOf f stride) x.toNat y.toNat w.toNat h.toNat := by
  constructor
  · rintro ⟨xx, yy, hrect, hout⟩
    exact ⟨ne_zero_of_toNat_pos (by omega), ne_zero_of_toNat_pos (by omega),
      hout.trans (placeOf_last_mono f stride (by omega) (by omega))⟩
  · rintro ⟨hw, hh, hout⟩
    have hwpos := toNat_pos_of_ne_zero hw
    have hhpos := toNat_pos_of_ne_zero hh
    exact ⟨_, _, by omega, hout⟩

theorem fillRectangle_verdict (x y w h : BitVec 16) (c : Colour) (s : State) : Verdict (.pfill x y w h c) s
    (fillRectangle (placeOf (PixFormat.ofCode s.pfFormat) s.pfStride.toNat) x y w h c s) := by
  have houtside := exists_pixel_outside_iff (PixFormat.ofCode s.pfFormat) s.pfStride.toNat s.pfLen.toNat x y w h
  obtain ⟨hclear, e⟩ | ⟨hset, hempty, e⟩ | ⟨hset, hw, hh, hout, e⟩ | ⟨hset, -, -, hin, e⟩ :=
    fillRectangle_cases (placeOf (PixFormat.ofCode s.pfFormat) s.pfStride.toNat) x y w h c s <;> rw [e]
  · exact .faults .notConfigured (pixelChecks_gate hclear) rfl
  · refine .completes _ (pixelChecks_pass hset fun hpixel => ?_) rfl
    obtain ⟨hw, hh, -⟩ := houtside.mp hpixel
    exact hempty.elim hw hh
  · exact .faults .pixAddr (pixelChecks_window hset (houtside.mpr ⟨hw, hh, hout⟩)) rfl
  · refine .completes _ (pixelChecks_pass hset fun hpixel => ?_) rfl
    obtain ⟨-, -, hout⟩ := houtside.mp hpixel
    exact Nat.not_le_of_lt hin hout

/-- Without a glyph, a GSIZE and a GSAMP have no cause before NOT_CONFIGURED, whatever depth G_BPP holds. -/
theorem gsize_isFirst {s : State} (hclear : s.gValid = false) : IsFirst (AppliesTo · .gsize s) .notConfigured :=
  .only hclear

theorem gsamp_isFirst {s : State} (hclear : s.gValid = false) (x y : BitVec 16) :
    IsFirst (AppliesTo · (.gsamp x y) s) .notConfigured :=
  .head hclear (by rintro _ (⟨rfl, -⟩ | ⟨rfl, -⟩) <;> decide)

theorem glyphSize_verdict (d : Depth) (s : State) : Verdict .gsize s (glyphSize d s) := by
  obtain ⟨hclear, e⟩ | ⟨hset, e⟩ := glyphSize_cases d s <;> rw [e]
  · exact .faults .notConfigured (gsize_isFirst hclear) rfl
  · exact .completes _ (fun _ ⟨_, hclear⟩ => ne_false_of_eq_true hset hclear) rfl

theorem sampleGlyph_verdict {d : Depth} {s : State} (hd : s.gBpp.toNat = d.bits) (x y : BitVec 16) :
    Verdict (.gsamp x y) s (sampleGlyph d x y s) := by
  obtain ⟨hclear, e⟩ | ⟨hset, hrange, e⟩ | ⟨hset, hx, hy, hout, e⟩ | ⟨hset, hx, hy, hin, e⟩ :=
    sampleGlyph_cases d x y s <;> rw [e]
  · exact .faults .notConfigured (gsamp_isFirst hclear x y) rfl
  · exact .faults .glyRange (.tail (ne_false_of_eq_true hset) (.head hrange (by rintro _ ⟨rfl, -⟩; decide))) rfl
  · rw [← hd] at hout
    exact .faults .glyAddr (.tail (ne_false_of_eq_true hset) (.tail (by omega) (.only hout))) rfl
  · refine .completes _ ?_ rfl
    rintro _ (⟨-, hclear⟩ | ⟨-, hrange⟩ | ⟨-, hout⟩)
    · exact ne_false_of_eq_true hset hclear
    · omega
    · rw [hd] at hout
      exact Nat.not_le_of_lt hin hout

theorem blendColours_verdict (blend : Nat → Nat → Colour → Colour → Colour) (bpp a : BitVec 8) (fg bg : Colour)
    (s : State) : Verdict (.blend bpp a fg bg) s (blendColours blend bpp a fg bg s) := by
  have depth {d : Depth} (hd : Depth.ofBits bpp.toNat = some d) := not_not.mpr ((exists_ofBits_iff _).mp ⟨d, hd⟩)
  obtain ⟨hnone, e⟩ | ⟨d, hd, hclear, e⟩ | ⟨d, hd, hset, hover, e⟩ | ⟨d, hd, hset, hin, e⟩ :=
    blendColours_cases blend bpp a fg bg s <;> rw [e]
  · exact .faults .badBpp
      (.head ((ofBits_eq_none_iff _).mp hnone) (by rintro _ (⟨rfl, -⟩ | ⟨rfl, -⟩) <;> decide)) rfl
  · exact .faults .notConfigured (.tail (depth hd) (.head hclear (by rintro _ ⟨rfl, -⟩; decide))) rfl
  · rw [coverageMax_of_ofBits hd] at hover
    exact .faults .covRange (.tail (depth hd) (.tail (ne_false_of_eq_true hset) (.only hover))) rfl
  · rw [coverageMax_of_ofBits hd] at hin
    refine .completes _ ?_ rfl
    rintro _ (⟨-, hnone⟩ | ⟨-, hclear⟩ | ⟨-, hover⟩)
    · exact depth hd hnone
    · exact ne_false_of_eq_true hset hclear
    · exact Nat.not_le_of_lt hover hin

/-- A word that decodes comes to what its command does. -/
theorem runWord_verdict {s t : State} {w : Word} {c : Command} (hdecode : decodeCommand w = .ok c)
    (h : runWord w s = .next t) : Verdict c s t := by
  obtain ⟨-, legal⟩ := (decodeCommand_eq_ok_iff w c).mp hdecode
  obtain ⟨_, hd, e⟩ | ⟨fmt, stride, len, hd, e⟩ | ⟨bpp, width, height, offset, len, hd, e⟩ | ⟨reg, hd, e⟩ |
    ⟨x, y, col, hd, e⟩ | ⟨x, y, hd, e⟩ | ⟨x, y, width, height, col, hd, e⟩ | ⟨hd, d, -, e⟩ | ⟨x, y, hd, d, hdepth, e⟩ |
    ⟨hd | ⟨x, y, hd⟩, -, hclear, e⟩ | ⟨hd | ⟨x, y, hd⟩, -, -, e⟩ | ⟨bpp, a, fg, bg, hd, e⟩ := runWord_commands w s <;>
    cases hd.symm.trans hdecode <;> cases e.symm.trans h
  · exact configureSurface_verdict fmt stride len s
  · exact configureGlyph_verdict bpp width height offset len s
  · exact readRegister_verdict (legal reg rfl) s
  · exact setPixel_verdict x y col s
  · exact getPixel_verdict x y s
  · exact fillRectangle_verdict x y width height col s
  · exact glyphSize_verdict d s
  · exact sampleGlyph_verdict ((ofBits_eq_some_iff _ d).mp hdepth) x y
  · exact .faults .notConfigured (gsize_isFirst hclear) rfl
  · exact .faults .notConfigured (gsamp_isFirst hclear x y) rfl
  · exact blendColours_verdict _ bpp a fg bg s

/-! ## What a command word comes to -/

/-- The moves still to come are no part of what a cause looks at. -/
theorem appliesTo_setInbox (cause : Cause) (c : Command) (s : State) (moves : List HostMove) :
    AppliesTo cause c (s.setInbox moves) ↔ AppliesTo cause c s := by
  cases c <;> exact Iff.rfl

/-- To a legal word apply the causes of its command. -/
theorem applies_of_decode {w : Word} {c : Command} (hdecode : decodeCommand w = .ok c) (cause : Cause) (s : State) :
    Applies cause w s ↔ AppliesTo cause c s := by
  constructor
  · rintro (⟨-, hillegal⟩ | ⟨c', hc', happlies⟩)
    · exact absurd hillegal ((not_illegalWord_iff w).mpr ⟨c, hdecode⟩)
    · cases hc'.symm.trans hdecode
      exact happlies
  · exact fun happlies => .inr ⟨c, hdecode, happlies⟩

/-- To an illegal word applies ILLEGAL_CMD alone. -/
theorem applies_of_illegalWord {w : Word} (hillegal : IllegalWord w) (cause : Cause) (s : State) :
    Applies cause w s ↔ cause = .illegalCmd := by
  constructor
  · rintro (⟨rfl, -⟩ | ⟨c, hdecode, -⟩)
    · rfl
    · exact absurd hillegal ((not_illegalWord_iff w).mpr ⟨c, hdecode⟩)
  · exact fun hcause => .inl ⟨hcause, hillegal⟩

/-- Everything a command word can do: an illegal one raises ILLEGAL_CMD, a legal one comes to its command's verdict. -/
theorem step_verdict {s t : State} {w : Word} {rest : List HostMove} (hin : s.inbox = .command w :: rest)
    (h : step s = .next t) :
    (IllegalWord w ∧ t = (s.setInbox rest).raise .illegalCmd) ∨
    (∃ c, decodeCommand w = .ok c ∧ Verdict c (s.setInbox rest) t) := by
  have hrun : runWord w (s.setInbox rest) = .next t := (step_of_move hin).symm.trans h
  by_cases hillegal : IllegalWord w
  · rw [runWord_of_illegalWord hillegal] at hrun
    cases hrun
    exact .inl ⟨hillegal, rfl⟩
  · obtain ⟨c, hdecode⟩ := (not_illegalWord_iff w).mp hillegal
    exact .inr ⟨c, hdecode, runWord_verdict hdecode hrun⟩

/-- The status of a response that a list was extended by. -/
theorem responseStatus_of_outbox {l : List Response} {r : Response} {status : BitVec 4} {value : BitVec 32}
    (h : l ++ [r] = l ++ [responseWord status value]) : responseStatus r = status := by
  rw [response_eq_of_append_eq h, responseStatus_responseWord]

/-! ## The order of the causes (R183) -/

/-- A command word's status is 0 when no cause applies, and otherwise the code of the first one that does. -/
theorem step_status {s t : State} {w : Word} {rest : List HostMove} {r : Response}
    (hin : s.inbox = .command w :: rest) (h : step s = .next t) (hout : t.outbox = s.outbox ++ [r]) :
    (responseStatus r = 0 ∧ ∀ cause, ¬ Applies cause w s) ∨
    (∃ cause, responseStatus r = cause.code ∧ IsFirst (Applies · w s) cause) := by
  obtain ⟨hillegal, rfl⟩ | ⟨c, hdecode, verdict⟩ := step_verdict hin h
  · refine .inr ⟨.illegalCmd, responseStatus_of_outbox hout.symm, ?_⟩
    simp only [applies_of_illegalWord hillegal]
    exact ⟨rfl, fun _ hother => .inl hother⟩
  · simp only [applies_of_decode hdecode, ← appliesTo_setInbox _ c s rest]
    cases verdict with
    | completes value none response => exact .inl ⟨responseStatus_of_outbox (hout.symm.trans response), none⟩
    | faults cause first effect =>
      subst effect
      exact .inr ⟨cause, responseStatus_of_outbox hout.symm, first⟩

/-- Settles O16: the status is the code of the first cause that applies (`step_status`), which is the one of least
rank (`IsFirst.eq_iff`), and FAULT records the status (`step_command_faultReg`). -/
theorem faultPriority : Obligations.FaultPriority := by
  intro s t w rest _ hin h
  obtain ⟨r, hout, hfault⟩ := step_command_faultReg hin h
  refine ⟨r, hout, fun cause => ?_, ?_, hfault⟩
  all_goals obtain ⟨hstatus, hnone⟩ | ⟨a, hstatus, first⟩ := step_status hin h hout <;> rw [hstatus]
  · exact iff_of_false cause.code_ne_zero.symm fun ⟨happlies, _⟩ => hnone cause happlies
  · rw [← first.eq_iff cause]
    exact ⟨Cause.code_injective, congrArg Cause.code⟩
  · exact iff_of_true rfl hnone
  · exact iff_of_false a.code_ne_zero fun hnone => hnone a first.holds

/-! ## The effect of a fault (R182) -/

/-- The opcode of a legal word is its command's. -/
theorem hasOpcode_iff_of_decode {w : Word} {c : Command} (hdecode : decodeCommand w = .ok c) (m : Mnemonic) :
    HasOpcode w m ↔ c.mnemonic = m := by
  obtain ⟨row, -⟩ := (matchAndMaskDecide w c.mnemonic).mp ⟨c, hdecode, rfl⟩
  have hop : HasOpcode w c.mnemonic := hasOpcode_of_row row
  exact ⟨hop.unique, fun hm => hm ▸ hop⟩

/-- Settles O17: a status that is a cause's code is no completion, and the verdict on a fault is its effect. -/
theorem faultEffect : Obligations.FaultEffect := by
  intro s t w rest r cause hin h hout hstatus
  obtain ⟨-, rfl⟩ | ⟨c, hdecode, verdict⟩ := step_verdict hin h
  · cases Cause.code_injective (hstatus.symm.trans (responseStatus_of_outbox hout.symm))
    exact ⟨response_eq_of_append_eq hout.symm, rfl⟩
  · cases verdict with
    | completes value none response =>
      exact absurd (hstatus.symm.trans (responseStatus_of_outbox (hout.symm.trans response))) cause.code_ne_zero
    | faults raised first effect =>
      subst effect
      cases Cause.code_injective (hstatus.symm.trans (responseStatus_of_outbox hout.symm))
      refine ⟨response_eq_of_append_eq hout.symm, ?_⟩
      simp only [hasOpcode_iff_of_decode hdecode]
      rfl

/-! ## Which command raises which cause (R181) -/

/-- Some state answers some word of the mnemonic with the cause's code. -/
def Raises (m : Mnemonic) (cause : Cause) : Prop :=
  ∃ (s t : State) (w : Word) (rest : List HostMove) (r : Response),
    s.inbox = .command w :: rest ∧ HasOpcode w m ∧ step s = .next t ∧
    t.outbox = s.outbox ++ [r] ∧ responseStatus r = cause.code

/-- A word of the mnemonic with all its must-be-zero bits set. -/
def allMustBeZeroSet (m : Mnemonic) : Word :=
  m.matchWord ||| (m.maskWord &&& ~~~0xFF)

theorem hasOpcode_allMustBeZeroSet (m : Mnemonic) : HasOpcode (allMustBeZeroSet m) m := by
  cases m <;> decide

/-- Every mnemonic has must-be-zero bits (30_encoding.md R65). -/
theorem illegalWord_allMustBeZeroSet (m : Mnemonic) : IllegalWord (allMustBeZeroSet m) := by
  have hrow : allMustBeZeroSet m &&& m.maskWord ≠ m.matchWord := by cases m <;> decide
  exact .inr (.inl ⟨m, hasOpcode_allMustBeZeroSet m, hrow⟩)

theorem raises_illegalCmd (m : Mnemonic) : Raises m .illegalCmd :=
  ⟨State.reset.setInbox [.command _], _, _, [], _, rfl, hasOpcode_allMustBeZeroSet m,
    runWord_of_illegalWord (illegalWord_allMustBeZeroSet m) _, rfl, responseStatus_responseWord _ _⟩

/-- A state with no move to come in which a command raises a cause is a witness. -/
theorem Raises.of_run {cause : Cause} (c : Command) (s : State) {t : State}
    (legal : c.RegisterLegal) (idle : s.inbox = [])
    (run : runWord (encodeCommand c) s = .next t) (response : t.outbox = s.outbox ++ [responseWord cause.code 0]) :
    Raises c.mnemonic cause := by
  have hdecode : decodeCommand (encodeCommand c) = .ok c := (decodeCommand_eq_ok_iff _ c).mpr ⟨rfl, legal⟩
  have hrun : step (s.setInbox [.command (encodeCommand c)]) = .next t := by
    rw [step_of_move rfl, ← run, ← idle]
    rfl
  exact ⟨_, t, _, [], _, rfl, (hasOpcode_iff_of_decode hdecode _).mpr rfl, hrun, response,
    responseStatus_responseWord _ _⟩

/-- A surface and a 1 by 1 glyph of depth 1, both configured with buffers of length 0. -/
def noBuffers : State :=
  { State.reset with
    pfValid := true, pfWritten := true, gWidth := 1, gHeight := 1, gValid := true, gWritten := true }

/-- Every cause that R181 lists for a mnemonic is raised: ILLEGAL_CMD by an illegal word, NOT_CONFIGURED after reset,
the others by an operand out of range or, with buffers of length 0, by any access. -/
theorem raises_of_mem_mayRaise {m : Mnemonic} {cause : Cause} (h : cause ∈ mayRaise m) : Raises m cause := by
  cases m <;> simp only [mayRaise, List.mem_cons, List.not_mem_nil, or_false] at h
  case cfgs =>
    obtain rfl | rfl := h
    · exact raises_illegalCmd _
    · exact .of_run (.cfgs 8 0 0) State.reset nofun rfl rfl rfl
  case cfgg =>
    obtain rfl | rfl := h
    · exact raises_illegalCmd _
    · exact .of_run (.cfgg 3 0 0 0 0) State.reset nofun rfl rfl rfl
  case rdreg =>
    subst h
    exact raises_illegalCmd _
  case pset =>
    obtain rfl | rfl | rfl := h
    · exact raises_illegalCmd _
    · exact .of_run (.pset 0 0 0) State.reset nofun rfl rfl rfl
    · exact .of_run (.pset 0 0 0) noBuffers nofun rfl rfl rfl
  case pget =>
    obtain rfl | rfl | rfl := h
    · exact raises_illegalCmd _
    · exact .of_run (.pget 0 0) State.reset nofun rfl rfl rfl
    · exact .of_run (.pget 0 0) noBuffers nofun rfl rfl rfl
  case pfill =>
    obtain rfl | rfl | rfl := h
    · exact raises_illegalCmd _
    · exact .of_run (.pfill 0 0 1 1 0) State.reset nofun rfl rfl rfl
    · exact .of_run (.pfill 0 0 1 1 0) noBuffers nofun rfl rfl rfl
  case gsize =>
    obtain rfl | rfl := h
    · exact raises_illegalCmd _
    · exact .of_run .gsize State.reset nofun rfl rfl rfl
  case gsamp =>
    obtain rfl | rfl | rfl | rfl := h
    · exact raises_illegalCmd _
    · exact .of_run (.gsamp 0 0) State.reset nofun rfl rfl rfl
    · exact .of_run (.gsamp 1 0) noBuffers nofun rfl rfl rfl
    · exact .of_run (.gsamp 0 0) noBuffers nofun rfl rfl rfl
  case blend =>
    obtain rfl | rfl | rfl | rfl := h
    · exact raises_illegalCmd _
    · exact .of_run (.blend 3 0 0 0) State.reset nofun rfl rfl rfl
    · exact .of_run (.blend 1 0 0 0) State.reset nofun rfl rfl rfl
    · exact .of_run (.blend 1 2 0 0) noBuffers nofun rfl rfl rfl

theorem illegalCmd_mem_mayRaise (m : Mnemonic) : Cause.illegalCmd ∈ mayRaise m := by
  cases m <;> decide

/-- A word of a mnemonic reports no cause but those of R181: an illegal one ILLEGAL_CMD, a legal one what its command
reports (`runWord_reports`). -/
theorem mem_mayRaise_of_raises {m : Mnemonic} {cause : Cause} (h : Raises m cause) : cause ∈ mayRaise m := by
  obtain ⟨s, t, w, rest, r, hin, hop, hstep, hout, hstatus⟩ := h
  have hrun : runWord w (s.setInbox rest) = .next t := (step_of_move hin).symm.trans hstep
  by_cases hillegal : IllegalWord w
  · rw [runWord_of_illegalWord hillegal] at hrun
    cases hrun
    cases Cause.code_injective (hstatus.symm.trans (responseStatus_of_outbox hout.symm))
    exact illegalCmd_mem_mayRaise m
  · obtain ⟨c, hdecode⟩ := (not_illegalWord_iff w).mp hillegal
    rw [← (hasOpcode_iff_of_decode hdecode m).mp hop]
    cases runWord_reports hdecode hrun with
    | answer value response =>
      exact absurd (hstatus.symm.trans (responseStatus_of_outbox (hout.symm.trans response))) cause.code_ne_zero
    | fault raised listed _ response =>
      cases Cause.code_injective (hstatus.symm.trans (responseStatus_of_outbox (hout.symm.trans response)))
      exact listed

/-- Settles O15: each listed cause has a witness (`raises_of_mem_mayRaise`), and none but the listed ones is ever
reported (`mem_mayRaise_of_raises`). -/
theorem faultCausesPerCommand : Obligations.FaultCausesPerCommand :=
  fun _ _ => ⟨raises_of_mem_mayRaise, mem_mayRaise_of_raises⟩

end Sys2Proof.Machine
end

section
/-! The round trip of the encoding (30_encoding.md sections 1 to 4): `decode_eq_ok_iff_encode` says in one equivalence
what the decoder answers, and its two directions are the two statements. -/

namespace Sys2Proof

/-! ## The variant of a format or a depth (R64) -/

/-- Format codes and formats correspond one to one (00_scope.md R8). -/
theorem PixFormat.ofCode_eq_iff (code : BitVec 3) (f : PixFormat) : PixFormat.ofCode code = f ↔ code = f.code := by
  revert code
  cases f <;> decide

/-- The depth that a 4-bit G_BPP names. -/
theorem Depth.ofBits_toNat_eq_iff (bpp : BitVec 4) (d : Depth) :
    Depth.ofBits bpp.toNat = some d ↔ bpp = BitVec.ofNat 4 d.bits := by
  revert bpp
  cases d <;> decide

@[simp] theorem psetVariant_command (f : PixFormat) (x y : BitVec 16) (c : Colour) :
    (psetVariant f x y c).command = .pset x y c := by
  cases f <;> rfl

@[simp] theorem pgetVariant_command (f : PixFormat) (x y : BitVec 16) :
    (pgetVariant f x y).command = .pget x y := by
  cases f <;> rfl

@[simp] theorem pfillVariant_command (f : PixFormat) (x y w h : BitVec 16) (c : Colour) :
    (pfillVariant f x y w h c).command = .pfill x y w h c := by
  cases f <;> rfl

@[simp] theorem gsizeVariant_command (d : Depth) : (gsizeVariant d).command = .gsize := by
  cases d <;> rfl

@[simp] theorem gsampVariant_command (d : Depth) (x y : BitVec 16) : (gsampVariant d x y).command = .gsamp x y := by
  cases d <;> rfl

@[simp] theorem blendVariant_command (f : PixFormat) (bpp a : BitVec 8) (fg bg : Colour) :
    (blendVariant f bpp a fg bg).command = .blend bpp a fg bg := by
  cases f <;> rfl

section
variable (fmt : BitVec 3) (bpp : BitVec 4)

@[simp] theorem psetVariant_selectedBy (f : PixFormat) (x y : BitVec 16) (c : Colour) :
    (psetVariant f x y c).selectedBy fmt bpp = (fmt == f.code) := by
  cases f <;> rfl

@[simp] theorem pgetVariant_selectedBy (f : PixFormat) (x y : BitVec 16) :
    (pgetVariant f x y).selectedBy fmt bpp = (fmt == f.code) := by
  cases f <;> rfl

@[simp] theorem pfillVariant_selectedBy (f : PixFormat) (x y w h : BitVec 16) (c : Colour) :
    (pfillVariant f x y w h c).selectedBy fmt bpp = (fmt == f.code) := by
  cases f <;> rfl

@[simp] theorem gsizeVariant_selectedBy (d : Depth) :
    (gsizeVariant d).selectedBy fmt bpp = (bpp == BitVec.ofNat 4 d.bits) := by
  cases d <;> rfl

@[simp] theorem gsampVariant_selectedBy (d : Depth) (x y : BitVec 16) :
    (gsampVariant d x y).selectedBy fmt bpp = (bpp == BitVec.ofNat 4 d.bits) := by
  cases d <;> rfl

@[simp] theorem blendVariant_selectedBy (f : PixFormat) (b a : BitVec 8) (fg bg : Colour) :
    (blendVariant f b a fg bg).selectedBy fmt bpp = (fmt == f.code) := by
  cases f <;> rfl

end

/-! ## What the decoder answers -/

/-- An instruction is selected as a variant of its own command. -/
theorem selectVariant_command {i : Instr} {fmt : BitVec 3} {bpp : BitVec 4} (h : i.selectedBy fmt bpp = true) :
    selectVariant fmt bpp i.command = .ok i := by
  induction i using Machine.instr_shapes with
  | cfgs | cfgg | rdreg => rfl
  | pset f | pget f | pfill f | blend f =>
    have hf : PixFormat.ofCode fmt = f := (PixFormat.ofCode_eq_iff fmt f).mpr (by simpa using h)
    simp [selectVariant, hf]
  | gsize d | gsamp d =>
    have hd : Depth.ofBits bpp.toNat = some d := (Depth.ofBits_toNat_eq_iff bpp d).mpr (by simpa using h)
    simp [selectVariant, hd]

/-- The variant of a command is an instruction of that command that the selectors pick. -/
theorem command_of_selectVariant {c : Command} {i : Instr} {fmt : BitVec 3} {bpp : BitVec 4}
    (h : selectVariant fmt bpp c = .ok i) : i.command = c ∧ i.selectedBy fmt bpp = true := by
  have hf : fmt = (PixFormat.ofCode fmt).code := (PixFormat.ofCode_eq_iff fmt _).mp rfl
  cases c with
  | cfgs | cfgg | rdreg => cases h; exact ⟨rfl, rfl⟩
  | pset | pget | pfill | blend =>
    cases h
    simp [← hf]
  | gsize | gsamp =>
    cases hd : Depth.ofBits bpp.toNat with
    | none => simp [selectVariant, hd] at h
    | some d =>
      simp only [selectVariant, hd, Except.ok.injEq] at h
      subst h
      simp [(Depth.ofBits_toNat_eq_iff bpp d).mp hd]

/-- RDREG's register number is the one operand that a well-formed instruction bounds (R66 case 3). -/
theorem wellFormed_iff (i : Instr) : WellFormed i = true ↔ i.command.RegisterLegal := by
  cases i with
  | rdreg reg => exact ⟨fun h _ e => Command.rdreg.inj e ▸ of_decide_eq_true h, fun h => decide_eq_true (h reg rfl)⟩
  | _ => exact iff_of_true rfl nofun

/-- A word decodes to the well-formed, selected instructions that it encodes, and to nothing else. -/
theorem decode_eq_ok_iff_encode (fmt : BitVec 3) (bpp : BitVec 4) (w : Word) (i : Instr) :
    decode fmt bpp w = .ok i ↔ encode i = w ∧ WellFormed i = true ∧ i.selectedBy fmt bpp = true := by
  rw [Machine.decode_eq_ok_iff, wellFormed_iff]
  constructor
  · rintro ⟨c, hdecode, hselect⟩
    obtain ⟨rfl, hselected⟩ := command_of_selectVariant hselect
    obtain ⟨hword, legal⟩ := (decodeCommand_eq_ok_iff w _).mp hdecode
    exact ⟨hword, legal, hselected⟩
  · rintro ⟨hword, legal, hselected⟩
    exact ⟨i.command, (decodeCommand_eq_ok_iff w _).mpr ⟨hword, legal⟩, selectVariant_command hselected⟩

/-- Settles O1: from right to left in `decode_eq_ok_iff_encode`. -/
theorem decodeOfEncode : Obligations.DecodeOfEncode :=
  fun i fmt bpp hwf hselected => (decode_eq_ok_iff_encode fmt bpp _ i).mpr ⟨rfl, hwf, hselected⟩

/-- Settles O2: from left to right in `decode_eq_ok_iff_encode`. -/
theorem legalWordIsItsEncoding : Obligations.LegalWordIsItsEncoding :=
  fun fmt bpp w i => (decode_eq_ok_iff_encode fmt bpp w i).mp

/-- Settles O5: each word is the encoding of the instruction beside it. -/
theorem sampleWordsDecode : Obligations.SampleWordsDecode := by
  unfold Obligations.SampleWordsDecode
  simp only [decode_eq_ok_iff_encode]
  decide

end Sys2Proof
end

section
/-! Steps and moves (10_state.md R12, R28, 20_memory.md R52, 70_reset_and_hazards.md R200, R201): what each move of the
outside does, read off the port. -/

namespace Sys2Proof.Machine

/-- Settles O6: the port takes the oldest move, and a word that decodes runs its instruction. -/
theorem stepRunsDecodedInstruction : Obligations.StepRunsDecodedInstruction := by
  intro s w rest i hin hdecode
  rw [step_of_move hin]
  show runWord w (s.setInbox rest) = exec i (s.setInbox rest)
  rw [runWord, State.setInbox_pfFormat, State.setInbox_gBpp, hdecode]

/-- Settles O7: an empty inbox leaves the state, and a host write is one `Memory.write`. -/
theorem movesBetweenCommands : Obligations.MovesBetweenCommands := by
  refine ⟨fun s hin => ?_, fun s rest o b hin => ?_, fun s rest o b hin => ?_⟩
  · obtain ⟨-, h⟩ | ⟨move, rest, hmove, -⟩ := step_cases s
    · exact h
    · cases hin.symm.trans hmove
  · exact ⟨_, step_of_move hin, fun a => Memory.read_write s.pix o.toNat a b⟩
  · exact ⟨_, step_of_move hin, fun a => Memory.read_write s.gly o.toNat a b⟩

/-- After reset no context register is specified (10_state.md R28). -/
theorem registerOpen_resetRegisters {n : Nat} (h : n ≤ 7) (s : State) : registerOpen n s.resetRegisters = true := by
  by_cases hsurface : n ≤ 2
  · exact registerOpen_surface hsurface _
  · exact registerOpen_glyph (by omega) h _

/-- Settles O8: the reset move is `State.resetRegisters`, after which every context register is open
(`registerOpen_resetRegisters`) and RDREG of an open one draws (`exec_rdreg_of_open`). -/
theorem resetEvent : Obligations.ResetEvent := by
  refine ⟨⟨rfl, rfl, rfl⟩, fun s rest hin => ?_⟩
  exact ⟨_, step_of_move hin, rfl, rfl, rfl, rfl, rfl, rfl, rfl, rfl, fun reg hreg =>
    exec_rdreg_of_open (by omega) (registerOpen_resetRegisters hreg (s.setInbox rest))⟩

/-- A reset during a word that would have answered abandons it. -/
theorem abandonWord_of_next {s d : State} {w : Word} (h : runWord w s = .next d) :
    abandonWord w s = .next (s.abandon d.pix) := by
  rw [abandonWord, h]

/-- Settles O9: the abandoned command leaves reset registers and a mixed memory, whose bytes are old or new
(`Memory.read_mix`). -/
theorem resetInterruptsCommand : Obligations.ResetInterruptsCommand := by
  intro s d w rest hin hrun
  refine ⟨_, (step_of_move hin).trans (abandonWord_of_next hrun), rfl, rfl, rfl, rfl, rfl, rfl, rfl, rfl, rfl,
    fun a => ?_⟩
  rw [State.abandon_pix, Memory.read_mix]
  split
  · exact .inr rfl
  · exact .inl rfl

/-! ## No stop (R206) -/

/-- In a state with legal contexts every command word is answered: the one stop of the model is a valid glyph whose
depth is none of the four. -/
theorem exists_runWord_next {s : State} (legal : ContextsLegal s) (w : Word) : ∃ t, runWord w s = .next t := by
  obtain ⟨_, -, e⟩ | ⟨_, _, _, -, e⟩ | ⟨_, _, _, _, _, -, e⟩ | ⟨_, -, e⟩ | ⟨_, _, _, -, e⟩ | ⟨_, _, -, e⟩ |
    ⟨_, _, _, _, _, -, e⟩ | ⟨-, _, -, e⟩ | ⟨_, _, -, _, -, e⟩ | ⟨-, -, -, e⟩ | ⟨-, hnone, hvalid, -⟩ |
    ⟨_, _, _, _, -, e⟩ := runWord_commands w s
  -- The stop, which legal contexts rule out; then the eleven answers alike.
  pick_goal 11
  · obtain ⟨-, hglyph⟩ := legal
    exact absurd (hglyph hvalid) ((ofBits_eq_none_iff _).mp hnone)
  all_goals exact ⟨_, e⟩

/-- Only a command word can stop the model, on its own or interrupted. -/
theorem exists_step_next {s : State} (legal : ContextsLegal s) : ∃ t, step s = .next t := by
  obtain ⟨-, e⟩ | ⟨move, rest, -, e⟩ := step_cases s
  · exact ⟨s, e⟩
  · rw [e]
    have answered := exists_runWord_next (s := s.setInbox rest) legal
    cases move with
    | command w => exact answered w
    | writePix offset b => exact ⟨_, rfl⟩
    | writeGly offset b => exact ⟨_, rfl⟩
    | reset => exact ⟨_, rfl⟩
    | resetDuring w =>
      obtain ⟨d, hd⟩ := answered w
      exact ⟨_, abandonWord_of_next hd⟩

/-- Settles O13: a step answers where the contexts are legal (`exists_step_next`), and in a run they are. -/
theorem nothingStops : Obligations.NothingStops :=
  ⟨fun _ legal => exists_step_next legal, fun _ reachable => exists_step_next reachable.contextsLegal⟩

end Sys2Proof.Machine
end

section
/-! The invariant of the machine (10_state.md R22, R24, 20_memory.md R40): beside legal contexts and the unused bits of
FAULT, which the state layer has, every step keeps the marks of the contexts and the form of the memories. -/

namespace Sys2Proof.Machine

/-! ## The marks of the contexts (log 4) -/

/-- A valid context has been written since reset. -/
def ContextsWritten (s : State) : Prop :=
  (s.pfValid = true → s.pfWritten = true) ∧ (s.gValid = true → s.gWritten = true)

/-- Commands keep the marks: the one that sets a valid bit sets its mark, and none clears a mark. -/
theorem CommandEffect.contextsWritten {s t : State} (effect : CommandEffect s t) (written : ContextsWritten s) :
    ContextsWritten t := by
  obtain ⟨hsurface, hglyph⟩ := written
  cases effect with
  | answer | draw | fault | store | fill => exact ⟨hsurface, hglyph⟩
  | surface => exact ⟨fun _ => rfl, hglyph⟩
  | surfaceRefused => exact ⟨nofun, hglyph⟩
  | glyph => exact ⟨hsurface, fun _ => rfl⟩
  | glyphRefused => exact ⟨hsurface, nofun⟩

theorem step_contextsWritten {s t : State} (h : step s = .next t) (written : ContextsWritten s) :
    ContextsWritten t := by
  cases step_effect h with
  | idle | writePix | writeGly => exact written
  | command w rest inbox effect => exact effect.contextsWritten written
  | reset | resetDuring => exact ⟨nofun, nofun⟩

/-! ## The form of the memories (20_memory.md R40, log 5) -/

/-- A memory in canonical form, with no offset of 2^32 or more. -/
def Memory.Legal (m : Memory) : Prop :=
  m.wf = true ∧ m.bounded = true

theorem Memory.Legal.write {m : Memory} (legal : m.Legal) {a : Nat} (ha : a < 2 ^ 32) (b : Byte) :
    (m.write a b).Legal :=
  ⟨Memory.wf_write a b legal.1, Memory.bounded_write b ha legal.2⟩

theorem Memory.Legal.mix {old new : Memory} (hold : old.Legal) (hnew : new.Legal) (pick : Nat → Bool) :
    (Memory.mix pick old new).Legal :=
  ⟨Memory.mix_wf pick new hold.1, Memory.mix_bounded pick hold.2 hnew.2⟩

theorem Memory.Legal.store {m : Memory} (legal : m.Legal) {p : Place} (hp : p.last < 2 ^ 32) (big : Bool)
    (c : Colour) : (p.store big m c).Legal :=
  ⟨p.store_wf big c legal.1, p.store_bounded big c hp legal.2⟩

/-- A fill whose footprint ends below 2^32 keeps the form: no pixel of the rectangle lies above the footprint's end. -/
theorem Memory.Legal.fillPixels {m : Memory} (legal : m.Legal) {f : PixFormat} {stride x y w h : Nat}
    (htop : topOffset (placeOf f stride) x y w h < 2 ^ 32) (big : Bool) (c : Colour) :
    (fillPixels (placeOf f stride) big x y w h c m).Legal :=
  fillPixels_keeps Memory.Legal _ big x y w h c m
    (fun _ _ _ _ _ _ _ hn => hn.store ((placeOf_last_mono f stride (by omega) (by omega)).trans_lt htop) big c) legal

/-- Commands keep the form of pixel memory: they write inside the window, which ends at 2^32 or before. -/
theorem CommandEffect.pix_legal {s t : State} (effect : CommandEffect s t) (legal : s.pix.Legal) : t.pix.Legal := by
  have hlen : s.pfLen.toNat < 2 ^ 32 := s.pfLen.isLt
  cases effect with
  | answer | draw | fault | surface | surfaceRefused | glyph | glyphRefused => exact legal
  | store f x y c inside => exact legal.store (inside.trans hlen) _ c
  | fill f x y w h c width height inside => exact legal.fillPixels (inside.trans hlen) _ c

/-- No command changes glyph memory. -/
theorem CommandEffect.gly_eq {s t : State} (effect : CommandEffect s t) : t.gly = s.gly := by
  cases effect <;> rfl

/-- Every step keeps the form of both memories: the host's offsets are 32 bits wide. -/
theorem step_memories_legal {s t : State} (h : step s = .next t) (hpix : s.pix.Legal) (hgly : s.gly.Legal) :
    t.pix.Legal ∧ t.gly.Legal := by
  cases step_effect h with
  | idle | reset => exact ⟨hpix, hgly⟩
  | command w rest inbox effect => exact ⟨effect.pix_legal hpix, effect.gly_eq ▸ hgly⟩
  | writePix offset b rest inbox => exact ⟨hpix.write offset.isLt b, hgly⟩
  | writeGly offset b rest inbox => exact ⟨hpix, hgly.write offset.isLt b⟩
  | resetDuring w rest inbox effect => exact ⟨hpix.mix (effect.pix_legal hpix) _, hgly⟩

/-! ## The invariant -/

/-- The invariant by its parts. -/
theorem inv_iff (s : State) :
    Inv s ↔ ContextsLegal s ∧ s.faultReg &&& 0xFFFFFE01 = 0 ∧ ContextsWritten s ∧ s.pix.Legal ∧ s.gly.Legal := by
  unfold Inv ContextsWritten Memory.Legal
  tauto

/-- Settles O10, part by part. -/
theorem invariantKept : Obligations.InvariantKept := by
  intro s t hinv hstep
  rw [inv_iff] at hinv ⊢
  obtain ⟨legal, hfault, written, hpix, hgly⟩ := hinv
  exact ⟨step_contextsLegal hstep legal, step_faultReg_unused hfault hstep, step_contextsWritten hstep written,
    step_memories_legal hstep hpix hgly⟩

/-- Settles O11: after reset no context is valid, FAULT is zero and both memories are empty. -/
theorem invariantAtReset : Obligations.InvariantAtReset := by
  intro moves big
  rw [inv_iff]
  exact ⟨⟨nofun, nofun⟩, BitVec.zero_and, ⟨nofun, nofun⟩, ⟨rfl, rfl⟩, ⟨rfl, rfl⟩⟩

end Sys2Proof.Machine
end

section
/-! How each command ends (30_encoding.md R67, 10_state.md section 9): `Ending` adds to the ways of `CommandEffect` the
mnemonic that can end so and the range of the value it answers; the responses, and who writes which register, are read
off its cases. -/

namespace Sys2Proof.Machine

/-- The states a command of mnemonic `m` can leave, when the values it answers are below `limit`. -/
inductive Ending (m : Mnemonic) (limit : Nat) (s : State) : State → Prop where
  | answer (v : BitVec 32) (hv : v.toNat < limit) : Ending m limit s (s.respond v)
  | fault (c : Cause) : Ending m limit s (s.raise c)
  | draw (v : BitVec 32) (reader : m = .rdreg) (hv : v.toNat < limit) : Ending m limit s (s.countDraw.respond v)
  | pixels (pix : Memory) (writer : m = .pset ∨ m = .pfill) (hlimit : 0 < limit) :
      Ending m limit s ((s.setPix pix).respond 0)
  | surface (format : BitVec 3) (stride : BitVec 17) (len : BitVec 32) (writer : m = .cfgs) (hlimit : 0 < limit) :
      Ending m limit s ((s.setSurface format stride len).respond 0)
  | surfaceRefused (writer : m = .cfgs) : Ending m limit s (s.invalidateSurface.raise .badFormat)
  | glyph (bpp : BitVec 4) (width height : BitVec 8) (offset len : BitVec 32) (writer : m = .cfgg)
      (hlimit : 0 < limit) : Ending m limit s ((s.setGlyph bpp width height offset len).respond 0)
  | glyphRefused (writer : m = .cfgg) : Ending m limit s (s.invalidateGlyph.raise .badBpp)

/-! ## The ending of each shared operation -/

theorem configureSurface_ending (fmt : BitVec 8) (stride : BitVec 16) (len : BitVec 32) (s : State) :
    Ending .cfgs 1 s (configureSurface fmt stride len s) := by
  obtain ⟨-, e⟩ | ⟨-, e⟩ := configureSurface_cases fmt stride len s <;> rw [e]
  · exact .surfaceRefused rfl
  · exact .surface _ _ _ rfl Nat.one_pos

theorem configureGlyph_ending (bpp width height : BitVec 8) (offset len : BitVec 32) (s : State) :
    Ending .cfgg 1 s (configureGlyph bpp width height offset len s) := by
  obtain ⟨-, e⟩ | ⟨_, -, e⟩ := configureGlyph_cases bpp width height offset len s <;> rw [e]
  · exact .glyphRefused rfl
  · exact .glyph _ _ _ _ _ rfl Nat.one_pos

theorem readRegister_ending (reg : BitVec 8) (s : State) : Ending .rdreg (2 ^ 32) s (readRegister reg s) := by
  obtain ⟨-, e⟩ | ⟨-, -, e⟩ | ⟨-, -, e⟩ := readRegister_cases reg s <;> rw [e]
  · exact .fault _
  · exact .draw _ rfl (BitVec.isLt _)
  · exact .answer _ (BitVec.isLt _)

theorem setPixel_ending (place : Place) (c : Colour) (s : State) : Ending .pset 1 s (setPixel place c s) := by
  obtain ⟨-, e⟩ | ⟨-, -, e⟩ | ⟨-, -, e⟩ := setPixel_cases place c s <;> rw [e]
  · exact .fault _
  · exact .fault _
  · exact .pixels _ (.inl rfl) Nat.one_pos

/-- A pixel's value fits the bits of its format (41_pixel_set_get.md R108). -/
theorem placeOf_load_lt (f : PixFormat) (stride x y : Nat) (big : Bool) (m : Memory) :
    ((placeOf f stride x y).load big m).toNat < 2 ^ formatBits f := by
  by_cases hcell : f = .rgb565
  · subst hcell
    rw [show placeOf .rgb565 stride x y = .cell _ from rfl, Place.load, BitVec.toNat_setWidth_of_le (by decide)]
    exact BitVec.isLt _
  · obtain ⟨byte, slot, hplace, hfit⟩ := placeOf_packed hcell stride x y
    have hbits : 2 ^ formatBits f ≤ 2 ^ 8 := Nat.pow_le_pow_right (by decide) (by omega)
    rw [hplace, Place.toNat_load_bits _ _ (by omega)]
    exact Nat.and_lt_two_pow _ (Nat.pred_lt (Nat.two_pow_pos _).ne')

theorem getPixel_ending (f : PixFormat) (stride x y : Nat) (s : State) :
    Ending .pget (2 ^ formatBits f) s (getPixel (placeOf f stride x y) s) := by
  obtain ⟨-, e⟩ | ⟨-, -, e⟩ | ⟨-, -, e⟩ := getPixel_cases (placeOf f stride x y) s <;> rw [e]
  · exact .fault _
  · exact .fault _
  · exact .answer _ (placeOf_load_lt ..)

theorem fillRectangle_ending (place : Nat → Nat → Place) (x y w h : BitVec 16) (c : Colour) (s : State) :
    Ending .pfill 1 s (fillRectangle place x y w h c s) := by
  obtain ⟨-, e⟩ | ⟨-, -, e⟩ | ⟨-, -, -, -, e⟩ | ⟨-, -, -, -, e⟩ := fillRectangle_cases place x y w h c s <;> rw [e]
  · exact .fault _
  · exact .answer _ Nat.one_pos
  · exact .fault _
  · exact .pixels _ (.inr rfl) Nat.one_pos

theorem glyphSize_ending (d : Depth) (s : State) : Ending .gsize 65026 s (glyphSize d s) := by
  obtain ⟨-, e⟩ | ⟨hset, -⟩ := glyphSize_cases d s
  · rw [e]
    exact .fault _
  · obtain ⟨v, hanswer, -, hmax⟩ := gsizeVariant_answers hset d
    have e : glyphSize d s = s.respond v := Host.Outcome.next.inj ((exec_gsizeVariant d s).symm.trans hanswer)
    rw [e]
    exact .answer v (Nat.lt_succ_of_le hmax)

/-- A coverage fits the bits of its depth (43_glyph_sampler.md R141). -/
theorem sampleValue_lt (d : Depth) (x : Nat) (b : Byte) :
    ((sampleValue d.bits x b).setWidth 32).toNat < 2 ^ d.bits := by
  rw [BitVec.toNat_setWidth_of_le (by decide), sampleValue, BitVec.toNat_and]
  refine Nat.and_lt_two_pow _ ?_
  cases d <;> decide

theorem sampleGlyph_ending (d : Depth) (x y : BitVec 16) (s : State) :
    Ending .gsamp (2 ^ d.bits) s (sampleGlyph d x y s) := by
  obtain ⟨-, e⟩ | ⟨-, -, e⟩ | ⟨-, -, -, -, e⟩ | ⟨-, -, -, -, e⟩ := sampleGlyph_cases d x y s <;> rw [e]
  · exact .fault _
  · exact .fault _
  · exact .fault _
  · exact .answer _ (sampleValue_lt ..)

theorem blendColours_ending (blend : Nat → Nat → Colour → Colour → Colour) (bpp a : BitVec 8) (fg bg : Colour)
    (s : State) : Ending .blend (2 ^ 16) s (blendColours blend bpp a fg bg s) := by
  obtain ⟨-, e⟩ | ⟨_, -, -, e⟩ | ⟨_, -, -, -, e⟩ | ⟨_, -, -, -, e⟩ := blendColours_cases blend bpp a fg bg s <;> rw [e]
  · exact .fault _
  · exact .fault _
  · exact .fault _
  · exact .answer _ ((BitVec.toNat_setWidth_of_le (by decide)).trans_lt (BitVec.isLt _))

/-- Every instruction ends as its mnemonic does. -/
theorem exec_ending {s t : State} (i : Instr) (h : exec i s = .next t) :
    ∃ limit, Ending i.command.mnemonic limit s t := by
  induction i using instr_shapes with
  | cfgs fmt stride len => cases h; exact ⟨_, configureSurface_ending fmt stride len s⟩
  | cfgg bpp width height offset len => cases h; exact ⟨_, configureGlyph_ending bpp width height offset len s⟩
  | rdreg reg => cases h; exact ⟨_, readRegister_ending reg s⟩
  | pset f x y c =>
    rw [psetVariant_command]
    cases (exec_psetVariant f x y c s).symm.trans h
    exact ⟨_, setPixel_ending _ c s⟩
  | pget f x y =>
    rw [pgetVariant_command]
    cases (exec_pgetVariant f x y s).symm.trans h
    exact ⟨_, getPixel_ending f _ _ _ s⟩
  | pfill f x y w h' c =>
    rw [pfillVariant_command]
    cases (exec_pfillVariant f x y w h' c s).symm.trans h
    exact ⟨_, fillRectangle_ending _ x y w h' c s⟩
  | gsize d =>
    rw [gsizeVariant_command]
    cases (exec_gsizeVariant d s).symm.trans h
    exact ⟨_, glyphSize_ending d s⟩
  | gsamp d x y =>
    rw [gsampVariant_command]
    cases (exec_gsampVariant d x y s).symm.trans h
    exact ⟨_, sampleGlyph_ending d x y s⟩
  | blend f bpp a fg bg =>
    rw [blendVariant_command]
    cases (exec_blendVariant f bpp a fg bg s).symm.trans h
    exact ⟨_, blendColours_ending _ bpp a fg bg s⟩

/-! ## Who writes what (10_state.md section 9) -/

/-- Settles O19: in each ending only the registers of its writer differ. -/
theorem registerWriters : Obligations.RegisterWriters := by
  intro i s t h
  obtain ⟨limit, ending⟩ := exec_ending i h
  generalize i.command.mnemonic = m at ending ⊢
  cases ending with
  | answer | fault => simp
  | draw v reader hv => simp [reader]
  | pixels pix writer hlimit =>
    obtain rfl | rfl := writer <;> simp
  | surface format stride len writer hlimit => simp [writer]
  | surfaceRefused writer => simp [writer]
  | glyph bpp width height offset len writer hlimit => simp [writer]
  | glyphRefused writer => simp [writer]

/-- Only PSET and PFILL end with another pixel memory. -/
theorem Ending.pix_eq {m : Mnemonic} {limit : Nat} {s t : State} (ending : Ending m limit s t) (hpset : m ≠ .pset)
    (hpfill : m ≠ .pfill) : t.pix = s.pix := by
  cases ending with
  | pixels pix writer hlimit => exact (writer.elim hpset hpfill).elim
  | _ => rfl

theorem toNat_statusWord (pfValid gValid : Bool) :
    (statusWord pfValid gValid).toNat = (if pfValid then 1 else 0) + (if gValid then 2 else 0) := by
  cases pfValid <;> cases gValid <;> rfl

/-- Settles O26: RDREG 8 answers STATUS (`rdreg_answersOnly`), and the valid bits are registers that only CFGS and CFGG
write (`registerWriters`). -/
theorem statusRegister : Obligations.StatusRegister := by
  refine ⟨fun s => ⟨statusWord s.pfValid s.gValid, ?_, toNat_statusWord _ _⟩, fun i s t h => ?_⟩
  · exact rdreg_answersOnly (reg := 8) (by decide) (registerOpen_status (by decide) s)
  · obtain ⟨hsurface, hglyph, -⟩ := registerWriters i s t h
    refine ⟨fun hchanged => ?_, fun hchanged => ?_⟩
    · by_contra hother
      obtain ⟨-, -, -, hkept, -⟩ := hsurface hother
      exact hchanged hkept
    · by_contra hother
      obtain ⟨-, -, -, -, -, hkept, -⟩ := hglyph hother
      exact hchanged hkept

/-! ## The response of a command word (R67) -/

/-- The values a command can answer are below this number. -/
def valueLimit (c : Command) (s : State) : Nat :=
  match c with
  | .cfgs .. => 1
  | .cfgg .. => 1
  | .rdreg _ => 2 ^ 32
  | .pset .. => 1
  | .pget .. => 2 ^ formatBits (PixFormat.ofCode s.pfFormat)
  | .pfill .. => 1
  | .gsize => 65026
  | .gsamp .. => 2 ^ s.gBpp.toNat
  | .blend .. => 2 ^ 16

/-- A word that decodes ends as its command does, and answers a value of its command's range. -/
theorem runWord_ending {s t : State} {w : Word} {c : Command} (hdecode : decodeCommand w = .ok c)
    (h : runWord w s = .next t) : Ending c.mnemonic (valueLimit c s) s t := by
  obtain ⟨_, hd, e⟩ | ⟨fmt, stride, len, hd, e⟩ | ⟨bpp, width, height, offset, len, hd, e⟩ | ⟨reg, hd, e⟩ |
    ⟨x, y, col, hd, e⟩ | ⟨x, y, hd, e⟩ | ⟨x, y, width, height, col, hd, e⟩ | ⟨hd, d, -, e⟩ | ⟨x, y, hd, d, hdepth, e⟩ |
    ⟨hd | ⟨x, y, hd⟩, -, -, e⟩ | ⟨hd | ⟨x, y, hd⟩, -, -, e⟩ | ⟨bpp, a, fg, bg, hd, e⟩ := runWord_commands w s <;>
    cases hd.symm.trans hdecode <;> cases e.symm.trans h
  · exact configureSurface_ending fmt stride len s
  · exact configureGlyph_ending bpp width height offset len s
  · exact readRegister_ending reg s
  · exact setPixel_ending _ col s
  · exact getPixel_ending _ _ _ _ s
  · exact fillRectangle_ending _ x y width height col s
  · exact glyphSize_ending d s
  · rw [valueLimit, (ofBits_eq_some_iff _ d).mp hdepth]
    exact sampleGlyph_ending d x y s
  · exact .fault .notConfigured
  · exact .fault .notConfigured
  · exact blendColours_ending _ bpp a fg bg s

/-- An ending appends one response, a value of the range or a cause, and takes no move. -/
theorem Ending.response {m : Mnemonic} {limit : Nat} {s t : State} (ending : Ending m limit s t) :
    t.inbox = s.inbox ∧ ((∃ v : BitVec 32, v.toNat < limit ∧ t.outbox = s.outbox ++ [responseWord 0 v]) ∨
      ∃ c : Cause, t.outbox = s.outbox ++ [responseWord c.code 0]) := by
  cases ending with
  | answer v hv => exact ⟨rfl, .inl ⟨v, hv, rfl⟩⟩
  | draw v reader hv => exact ⟨rfl, .inl ⟨v, hv, rfl⟩⟩
  | pixels pix writer hlimit => exact ⟨rfl, .inl ⟨0, hlimit, rfl⟩⟩
  | surface format stride len writer hlimit => exact ⟨rfl, .inl ⟨0, hlimit, rfl⟩⟩
  | glyph bpp width height offset len writer hlimit => exact ⟨rfl, .inl ⟨0, hlimit, rfl⟩⟩
  | fault c => exact ⟨rfl, .inr ⟨c, rfl⟩⟩
  | surfaceRefused writer => exact ⟨rfl, .inr ⟨.badFormat, rfl⟩⟩
  | glyphRefused writer => exact ⟨rfl, .inr ⟨.badBpp, rfl⟩⟩

/-- Everything the response of a command word can be: a cause, or a value of the command's range. -/
theorem runWord_response {s t : State} {w : Word} (h : runWord w s = .next t) :
    t.inbox = s.inbox ∧ ((∃ cause : Cause, t.outbox = s.outbox ++ [responseWord cause.code 0]) ∨
      ∃ c v, decodeCommand w = .ok c ∧ v.toNat < valueLimit c s ∧
        t.outbox = s.outbox ++ [responseWord 0 v]) := by
  by_cases hillegal : IllegalWord w
  · rw [runWord_of_illegalWord hillegal] at h
    cases h
    exact ⟨rfl, .inl ⟨.illegalCmd, rfl⟩⟩
  · obtain ⟨c, hdecode⟩ := (not_illegalWord_iff w).mp hillegal
    obtain ⟨hinbox, ⟨v, hv, hout⟩ | hfault⟩ := (runWord_ending hdecode h).response
    · exact ⟨hinbox, .inr ⟨c, v, hdecode, hv, hout⟩⟩
    · exact ⟨hinbox, .inl hfault⟩

theorem Cause.toNat_code_le (c : Cause) : c.code.toNat ≤ 8 := by
  cases c <;> decide

theorem eq_zero_of_toNat_lt_one {v : BitVec 32} (h : v.toNat < 1) : v = 0 :=
  BitVec.eq_of_toNat_eq (Nat.lt_one_iff.mp h)

/-- Settles O14: the response is a cause or a value of the command's range (`runWord_response`), in the layout of a
response word. -/
theorem oneResponsePerCommand : Obligations.OneResponsePerCommand := by
  intro s t w rest hin h
  obtain ⟨hinbox, ⟨cause, hout⟩ | ⟨c, v, hdecode, hv, hout⟩⟩ := runWord_response ((step_of_move hin).symm.trans h)
  · refine ⟨_, hout, hinbox, responseTop_responseWord _ _, ?_, fun _ => responseValue_responseWord _ _,
      fun hzero => ?_⟩
    · rw [responseStatus_responseWord]
      exact cause.toNat_code_le
    · rw [responseStatus_responseWord] at hzero
      exact absurd hzero cause.code_ne_zero
  · refine ⟨_, hout, hinbox, responseTop_responseWord _ _, ?_, fun hnonzero => ?_, fun _ c' hc' => ?_⟩
    · rw [responseStatus_responseWord]
      decide
    · exact absurd (responseStatus_responseWord 0 v) hnonzero
    · cases hc'.symm.trans hdecode
      rw [responseValue_responseWord]
      cases c with
      | cfgs | cfgg | pset | pfill => exact eq_zero_of_toNat_lt_one hv
      | rdreg => trivial
      | gsize => exact Nat.le_of_lt_succ hv
      | pget | gsamp | blend => exact hv

end Sys2Proof.Machine
end

section
/-! The window of pixel memory (20_memory.md sections 2 to 4, 42_pixel_fill.md R120): where a store or a fill can change
a byte, on which bytes its result depends, and that doing it twice is doing it once. A PSET is a fill of one pixel
(`pfillVariant_one_by_one`), so that fills are all there is to say it of. -/

namespace Sys2Proof.Machine

/-! ## Cells (R44) -/

/-- Two bytes are found again in the cell they were put together to. -/
theorem cellBytes_cellValue (big : Bool) (b0 b1 : Byte) :
    cellFirst big (cellValue big b0 b1) = b0 ∧ cellSecond big (cellValue big b0 b1) = b1 := by
  have low (hi lo : Byte) : (hi ++ lo : Colour).extractLsb' 0 8 = lo := BitVec.extractLsb'_append_eq_right
  have high (hi lo : Byte) : (hi ++ lo : Colour).extractLsb' 8 8 = hi := BitVec.extractLsb'_append_eq_left
  cases big
  · exact ⟨low b1 b0, high b1 b0⟩
  · exact ⟨high b0 b1, low b0 b1⟩

/-- No command changes the byte order of cells. -/
theorem CommandEffect.bigEndian_eq {s t : State} (effect : CommandEffect s t) : t.bigEndian = s.bigEndian := by
  cases effect <;> rfl

theorem step_bigEndian {s t : State} (h : step s = .next t) : t.bigEndian = s.bigEndian := by
  cases step_effect h with
  | idle | writePix | writeGly | reset | resetDuring => rfl
  | command w rest inbox effect => exact effect.bigEndian_eq

/-- Settles O33: the place and the two orders are the model's definitions, the value of the two bytes is the cell and
the bytes of the cell are the two (`cellValue_cellBytes`, `cellBytes_cellValue`), and no step sets the order. -/
theorem cellByteOrder : Obligations.CellByteOrder :=
  ⟨fun _ _ _ _ _ _ => rfl, fun _ => ⟨rfl, rfl, rfl, rfl⟩, cellValue_cellBytes, cellBytes_cellValue,
    fun _ _ => step_bigEndian⟩

/-! ## Which bytes a fill changes (R46, R121) -/

/-- A fill leaves every byte alone that is no pixel's of the rectangle. -/
theorem fillPixels_read_of_outside {place : Nat → Nat → Place} {x y w h a : Nat}
    (houtside : ∀ xx yy, InRect x y w h xx yy → a < (place xx yy).first ∨ (place xx yy).last < a) (big : Bool)
    (c : Colour) (m : Memory) : (fillPixels place big x y w h c m).read a = m.read a :=
  fillPixels_keeps (fun n => n.read a = m.read a) place big x y w h c m
    (fun _ _ hx hxw hy hyh n hn =>
      (Place.read_store_of_outside _ big n c (houtside _ _ ⟨hx, hxw, hy, hyh⟩)).trans hn) rfl

/-- Settles O35: a store and a fill end inside the window, and nothing else writes pixel memory. -/
theorem writesStayInWindow : Obligations.WritesStayInWindow := by
  intro i s t a h hbeyond
  cases exec_effect i h with
  | answer | draw | fault | surface | surfaceRefused | glyph | glyphRefused => rfl
  | store f x y c inside =>
    exact Place.read_store_of_outside _ _ _ _ (.inr (inside.trans_le hbeyond))
  | fill f x y w h c width height inside =>
    refine fillPixels_read_of_outside (fun xx yy hrect => .inr ?_) _ _ _
    exact ((placeOf_last_mono f _ (by omega) (by omega)).trans_lt inside).trans_le hbeyond

/-- Settles O39: such a fill passes its checks (`pfillVariant_of_inside`) and changes only bytes of its pixels. -/
theorem fillCompletes : Obligations.FillCompletes := by
  intro f x y w h c s hw hh hvalid hin
  exact ⟨_, pfillVariant_of_inside hvalid hw hh hin c, fun a houtside => fillPixels_read_of_outside houtside _ _ _⟩

/-! ## A write to pixel memory twice (20_memory.md section 4) -/

/-- Every instruction that writes pixel memory is a fill. -/
theorem exists_fill_of_writer {i : Instr} (h : i.command.mnemonic = .pset ∨ i.command.mnemonic = .pfill) :
    ∃ f x y w h c, ∀ s, exec i s = .next (fillRectangle (placeOf f s.pfStride.toNat) x y w h c s) := by
  induction i using instr_shapes with
  | pset f x y c =>
    exact ⟨f, x, y, 1, 1, c, fun s => by rw [← pfillVariant_one_by_one, exec_pfillVariant]⟩
  | pfill f x y width height c => exact ⟨f, x, y, width, height, c, exec_pfillVariant f x y width height c⟩
  | cfgs | cfgg | rdreg => simp [Instr.command, Command.mnemonic] at h
  | pget | gsize | gsamp | blend => simp [Command.mnemonic] at h

/-- A fill that passes its checks updates pixel memory, and any other leaves it. -/
theorem fillRectangle_pix (place : Nat → Nat → Place) (x y w h : BitVec 16) (c : Colour) (s : State) :
    (fillRectangle place x y w h c s).pix =
      if s.pfValid = true ∧ w ≠ 0 ∧ h ≠ 0 ∧ topOffset place x.toNat y.toNat w.toNat h.toNat < s.pfLen.toNat then
        fillPixels place s.bigEndian x.toNat y.toNat w.toNat h.toNat c s.pix
      else s.pix := by
  obtain ⟨hclear, e⟩ | ⟨-, hempty, e⟩ | ⟨-, -, -, hout, e⟩ | ⟨hset, hw, hh, hin, e⟩ :=
    fillRectangle_cases place x y w h c s <;> rw [e]
  · rw [if_neg fun ⟨hset, _⟩ => ne_false_of_eq_true hset hclear]
    rfl
  · rw [if_neg fun ⟨_, hw, hh, _⟩ => hempty.elim hw hh]
    rfl
  · rw [if_neg fun ⟨_, _, _, hin⟩ => Nat.not_le_of_lt hin hout]
    rfl
  · rw [if_pos ⟨hset, hw, hh, hin⟩]
    rfl

/-- Painting the same bits again with the same values changes nothing. -/
theorem fillPixels_twice (f : PixFormat) (stride x y w h : Nat) (big : Bool) (c : Colour) (m : Memory) (a : Nat) :
    (fillPixels (placeOf f stride) big x y w h c (fillPixels (placeOf f stride) big x y w h c m)).read a =
      (fillPixels (placeOf f stride) big x y w h c m).read a := by
  have once := fillPixels_painted f stride x y w h big c m
  have twice := once.trans (fillPixels_painted f stride x y w h big c (fillPixels (placeOf f stride) big x y w h c m))
  exact (twice.congr fun _ _ _ => (or_self_iff).symm).read_unique once a

/-- Settles O46: the first write leaves the registers that the checks look at (`registerWriters`), so that both pass or
neither does, and a fill twice is a fill once (`fillPixels_twice`). -/
theorem pixelWritesIdempotent : Obligations.PixelWritesIdempotent := by
  intro i s t u hwriter ht hu a
  obtain ⟨hsurface, -, -, -, -, -, hbig⟩ := registerWriters i s t ht
  obtain ⟨-, hstride, hlen, hvalid, -⟩ := hsurface (by rintro hcfgs; simp [hcfgs] at hwriter)
  obtain ⟨f, x, y, w, h, c, hfill⟩ := exists_fill_of_writer hwriter
  cases (hfill t).symm.trans hu
  have hpix := congrArg State.pix (Host.Outcome.next.inj (ht.symm.trans (hfill s)))
  rw [fillRectangle_pix] at hpix ⊢
  rw [hstride, hlen, hvalid, hbig]
  split_ifs at hpix ⊢
  · rw [hpix]
    exact fillPixels_twice ..
  · rfl

/-! ## Which bytes a command depends on (R46, R47) -/

/-- The same state over other memories. -/
def State.withMemories (s : State) (p g : Memory) : State :=
  (s.setPix p).setGly g

section
variable (s : State) (p g : Memory)

@[simp] theorem State.withMemories_pfValid : (s.withMemories p g).pfValid = s.pfValid := rfl
@[simp] theorem State.withMemories_pfLen : (s.withMemories p g).pfLen = s.pfLen := rfl
@[simp] theorem State.withMemories_bigEndian : (s.withMemories p g).bigEndian = s.bigEndian := rfl
@[simp] theorem State.withMemories_gValid : (s.withMemories p g).gValid = s.gValid := rfl
@[simp] theorem State.withMemories_gWidth : (s.withMemories p g).gWidth = s.gWidth := rfl
@[simp] theorem State.withMemories_gHeight : (s.withMemories p g).gHeight = s.gHeight := rfl
@[simp] theorem State.withMemories_gOffset : (s.withMemories p g).gOffset = s.gOffset := rfl
@[simp] theorem State.withMemories_gLen : (s.withMemories p g).gLen = s.gLen := rfl
@[simp] theorem State.withMemories_pix : (s.withMemories p g).pix = p := rfl
@[simp] theorem State.withMemories_gly : (s.withMemories p g).gly = g := rfl

end

/-- Two memories that read alike at every offset below `len`. -/
def Memory.AgreeBelow (len : Nat) (m n : Memory) : Prop :=
  ∀ a, a < len → m.read a = n.read a

/-- What `run` does in `s` it does over any memories that agree with those of `s` inside the windows: glyph memory
stays, and what it leaves in pixel memory agrees inside the window. -/
def ReadsInWindow (run : State → State) (s : State) : Prop :=
  ∀ p g : Memory, p.AgreeBelow s.pfLen.toNat s.pix → g.AgreeBelow s.gLen.toNat s.gly →
    ∃ q : Memory, run (s.withMemories p g) = (run s).withMemories q g ∧ q.AgreeBelow s.pfLen.toNat (run s).pix

/-- A command that writes no memory reads in the window when its result is the same over the other memories. -/
theorem ReadsInWindow.of_commutes {run : State → State} {s : State} {m : Mnemonic} {limit : Nat}
    (ending : Ending m limit s (run s)) (hpset : m ≠ .pset) (hpfill : m ≠ .pfill)
    (commutes : ∀ p g : Memory, p.AgreeBelow s.pfLen.toNat s.pix → g.AgreeBelow s.gLen.toNat s.gly →
      run (s.withMemories p g) = (run s).withMemories p g) : ReadsInWindow run s :=
  fun p g hp hg => ⟨p, commutes p g hp hg, (ending.pix_eq hpset hpfill).symm ▸ hp⟩

/-- Bytes that agree before a painting agree after it. -/
theorem Painted.read_congr {owned : Nat → Nat → Prop} {paint : Nat → Nat → Bool} {m n m' n' : Memory}
    (h : Painted owned paint m n) (h' : Painted owned paint m' n') {a : Nat} (same : m.read a = m'.read a) :
    n.read a = n'.read a := by
  refine BitVec.eq_of_getLsbD_eq fun k hk => ?_
  obtain ⟨hin, hout⟩ := h a k hk
  obtain ⟨hin', hout'⟩ := h' a k hk
  by_cases ho : owned a k
  · rw [hin ho, hin' ho]
  · rw [hout ho, hout' ho, same]

theorem configureSurface_readsInWindow (fmt : BitVec 8) (stride : BitVec 16) (len : BitVec 32) (s : State) :
    ReadsInWindow (configureSurface fmt stride len) s := by
  refine .of_commutes (configureSurface_ending fmt stride len s) nofun nofun fun p g _ _ => ?_
  unfold configureSurface
  split_ifs <;> rfl

theorem configureGlyph_readsInWindow (bpp width height : BitVec 8) (offset len : BitVec 32) (s : State) :
    ReadsInWindow (configureGlyph bpp width height offset len) s := by
  refine .of_commutes (configureGlyph_ending bpp width height offset len s) nofun nofun fun p g _ _ => ?_
  unfold configureGlyph
  cases Depth.ofBits bpp.toNat <;> rfl

theorem readRegister_readsInWindow (reg : BitVec 8) (s : State) : ReadsInWindow (readRegister reg) s := by
  refine .of_commutes (readRegister_ending reg s) nofun nofun fun p g _ _ => ?_
  have hopen : registerOpen reg.toNat (s.withMemories p g) = registerOpen reg.toNat s := rfl
  unfold readRegister
  rw [hopen]
  split_ifs <;> rfl

theorem getPixel_readsInWindow (f : PixFormat) (stride x y : Nat) (s : State) :
    ReadsInWindow (getPixel (placeOf f stride x y)) s := by
  refine .of_commutes (getPixel_ending f stride x y s) nofun nofun fun p g hp _ => ?_
  unfold getPixel
  rw [State.withMemories_pfValid, State.withMemories_pfLen, State.withMemories_bigEndian, State.withMemories_pix]
  split_ifs with hclear hout
  · rfl
  · rfl
  · rw [Place.load_congr _ s.bigEndian fun a _ hlast => hp a (by omega)]
    rfl

/-- The stores of a fill depend on no byte but those they change, and change the same bits of any memory. -/
theorem fillRectangle_readsInWindow (f : PixFormat) (stride : Nat) (x y w h : BitVec 16) (c : Colour) (s : State) :
    ReadsInWindow (fillRectangle (placeOf f stride) x y w h c) s := by
  intro p g hp hg
  unfold fillRectangle
  rw [State.withMemories_pfValid, State.withMemories_pfLen, State.withMemories_bigEndian, State.withMemories_pix]
  split_ifs
  · exact ⟨p, rfl, hp⟩
  · exact ⟨p, rfl, hp⟩
  · exact ⟨p, rfl, hp⟩
  · have painted := fillPixels_painted f stride x.toNat y.toNat w.toNat h.toNat s.bigEndian c
    exact ⟨_, rfl, fun a ha => (painted p).read_congr (painted s.pix) (hp a ha)⟩

theorem glyphSize_readsInWindow (d : Depth) (s : State) : ReadsInWindow (glyphSize d) s := by
  refine .of_commutes (glyphSize_ending d s) nofun nofun fun p g _ _ => ?_
  unfold glyphSize
  rw [State.withMemories_gValid, State.withMemories_gWidth, State.withMemories_gHeight]
  split_ifs <;> rfl

theorem sampleGlyph_readsInWindow (d : Depth) (x y : BitVec 16) (s : State) :
    ReadsInWindow (sampleGlyph d x y) s := by
  refine .of_commutes (sampleGlyph_ending d x y s) nofun nofun fun p g _ hg => ?_
  unfold sampleGlyph
  rw [State.withMemories_gValid, State.withMemories_gWidth, State.withMemories_gHeight, State.withMemories_gOffset,
    State.withMemories_gLen, State.withMemories_gly]
  dsimp only
  split_ifs with hclear hrange hout
  · rfl
  · rfl
  · rfl
  · rw [hg _ (Nat.lt_of_not_le hout)]
    rfl

theorem blendColours_readsInWindow (blend : Nat → Nat → Colour → Colour → Colour) (bpp a : BitVec 8)
    (fg bg : Colour) (s : State) : ReadsInWindow (blendColours blend bpp a fg bg) s := by
  refine .of_commutes (blendColours_ending blend bpp a fg bg s) nofun nofun fun p g _ _ => ?_
  unfold blendColours
  rw [State.withMemories_pfValid]
  cases Depth.ofBits bpp.toNat with
  | none => rfl
  | some d =>
    dsimp only
    split_ifs <;> rfl

/-- Every instruction reads in the windows, the place of its pixels being given by the stride. -/
theorem exec_readsInWindow (i : Instr) (s : State) :
    ∃ run : State → State, ReadsInWindow run s ∧ exec i s = .next (run s) ∧
      ∀ p g, exec i (s.withMemories p g) = .next (run (s.withMemories p g)) := by
  induction i using instr_shapes with
  | cfgs fmt stride len => exact ⟨_, configureSurface_readsInWindow fmt stride len s, rfl, fun _ _ => rfl⟩
  | cfgg bpp width height offset len =>
    exact ⟨_, configureGlyph_readsInWindow bpp width height offset len s, rfl, fun _ _ => rfl⟩
  | rdreg reg => exact ⟨_, readRegister_readsInWindow reg s, rfl, fun _ _ => rfl⟩
  | pset f x y c =>
    simp only [← pfillVariant_one_by_one, exec_pfillVariant]
    exact ⟨_, fillRectangle_readsInWindow f s.pfStride.toNat x y 1 1 c s, rfl, fun _ _ => rfl⟩
  | pget f x y =>
    simp only [exec_pgetVariant]
    exact ⟨_, getPixel_readsInWindow f s.pfStride.toNat x.toNat y.toNat s, rfl, fun _ _ => rfl⟩
  | pfill f x y w h c =>
    simp only [exec_pfillVariant]
    exact ⟨_, fillRectangle_readsInWindow f s.pfStride.toNat x y w h c s, rfl, fun _ _ => rfl⟩
  | gsize d =>
    simp only [exec_gsizeVariant]
    exact ⟨_, glyphSize_readsInWindow d s, rfl, fun _ _ => rfl⟩
  | gsamp d x y =>
    simp only [exec_gsampVariant]
    exact ⟨_, sampleGlyph_readsInWindow d x y s, rfl, fun _ _ => rfl⟩
  | blend f bpp a fg bg =>
    simp only [exec_blendVariant]
    exact ⟨_, blendColours_readsInWindow (blendOf f) bpp a fg bg s, rfl, fun _ _ => rfl⟩

/-- Settles O36: the instruction's shared operation reads in the windows (`exec_readsInWindow`). -/
theorem readsStayInWindow : Obligations.ReadsStayInWindow := by
  intro i s t p g h hp hg
  obtain ⟨run, hlocal, hrun, hrun'⟩ := exec_readsInWindow i s
  cases hrun.symm.trans h
  obtain ⟨q, hq, agree⟩ := hlocal p g hp hg
  exact ⟨q, (hrun' p g).trans (congrArg Host.Outcome.next hq), agree⟩

end Sys2Proof.Machine
end

section
/-! A surface that is not usable (40_config.md R81): the gate is the first check of every pixel operation, and BLEND has
one check before it. -/

namespace Sys2Proof.Machine

/-- Settles O22: the refused CFGS is `exec_cfgs_of_noFormat`, and the gate faults are the first of each operation's
checks. -/
theorem cfgsUnknownFormat : Obligations.CfgsUnknownFormat := by
  refine ⟨fun fmt stride len s habove => exec_cfgs_of_noFormat habove stride len s, fun i s hclear => ?_⟩
  induction i using instr_shapes with
  | cfgs | cfgg | rdreg => simp [Instr.command, Command.mnemonic]
  | gsize | gsamp => simp [Command.mnemonic]
  | pset f x y c =>
    obtain ⟨gate, -⟩ := psetVariant_checksPixel f x y c s
    simp [Command.mnemonic, gate hclear]
  | pget f x y =>
    obtain ⟨gate, -⟩ := pgetVariant_checksPixel f x y s
    simp [Command.mnemonic, gate hclear]
  | pfill f x y w h c =>
    obtain ⟨gate, -⟩ := pfillVariant_checksFill f x y w h c s
    simp [Command.mnemonic, gate hclear]
  | blend f bpp a fg bg =>
    obtain ⟨depth, gate, -⟩ := blendVariant_checksBlend f fg bg bpp a s
    by_cases hdepth : bpp.toNat = 1 ∨ bpp.toNat = 2 ∨ bpp.toNat = 4 ∨ bpp.toNat = 8
    · simp [Command.mnemonic, gate hdepth hclear]
    · simp [Command.mnemonic, depth hdepth]

end Sys2Proof.Machine
end

section
/-! The closed forms of the packings (42_pixel_fill.md R124, R125, R128 to R130): the slots of an edge mask are one run
of bits, and the replicated byte repeats the colour in every slot. -/

namespace Sys2Proof.Machine

/-- A run of slots that is the bits `shift` to `shift + n - 1` has the mask of these bits. -/
theorem edgeMask_eq_run {f : PixFormat} {p : Packing} (hp : packingOf f = some p) {s0 s1 shift n : Nat}
    (hs1 : s1 < p.ppb)
    (hrun : ∀ k, k < 8 → (s0 ≤ slotOf p k ∧ slotOf p k ≤ s1 ↔ shift ≤ k ∧ k < shift + n)) :
    edgeMask p s0 s1 = BitVec.ofNat 8 ((2 ^ n - 1) <<< shift) := by
  refine BitVec.eq_of_getLsbD_eq fun k hk => Bool.eq_iff_iff.mpr ?_
  rw [getLsbD_edgeMask hp s0 hs1 hk, hrun k hk]
  simp only [BitVec.getLsbD_ofNat, Nat.testBit_shiftLeft, Nat.testBit_two_pow_sub_one, Bool.and_eq_true,
    decide_eq_true_eq]
  omega

/-- A slot's field begins at a multiple of the format's bits. -/
theorem slotShift_eq_mul {f : PixFormat} {p : Packing} (hp : packingOf f = some p) (slot : Nat) :
    slotShift p slot = formatBits f * if p.rising then slot else p.ppb - 1 - slot := by
  obtain ⟨-, -, hbits, -, -⟩ := packingOf_fields hp
  rw [slotShift, hbits]
  split <;> rfl

/-- A slot's field lies inside the byte. -/
theorem slotShift_fits {f : PixFormat} {p : Packing} (hp : packingOf f = some p) {slot : Nat} (hslot : slot < p.ppb) :
    slotShift p slot + formatBits f ≤ 8 := by
  cases f <;> cases hp <;> simp only [slotShift, formatBits, if_true, if_false, Bool.false_eq_true] at hslot ⊢ <;> omega

/-- The replicated byte has the masked colour in the field of each slot. -/
theorem replicated_slot {f : PixFormat} {p : Packing} (hp : packingOf f = some p) (c : Colour) {slot : Nat}
    (hslot : slot < p.ppb) :
    (replicated p c >>> slotShift p slot).toNat % 2 ^ formatBits f = c.toNat % 2 ^ formatBits f := by
  have hfit := slotShift_fits hp hslot
  refine Nat.eq_of_testBit_eq fun k => ?_
  rw [Nat.testBit_mod_two_pow, Nat.testBit_mod_two_pow, ← BitVec.getLsbD, ← BitVec.getLsbD,
    BitVec.getLsbD_ushiftRight]
  by_cases hk : k < formatBits f
  · rw [getLsbD_replicated hp c (by omega), slotShift_eq_mul hp, Nat.mul_add_mod, Nat.mod_eq_of_lt hk]
  · simp [hk]

/-- Settles O42: each format's slots are a run of bits (`edgeMask_eq_run`), and every slot of the replicated byte holds
the colour (`replicated_slot`). -/
theorem packingForms : Obligations.PackingForms := by
  refine ⟨fun p s0 s1 hp hle hlt => ?_, fun p s0 s1 hp hle hlt => ?_, fun p s0 s1 hp hle hlt => ?_, fun p hp => ?_,
    fun p hp => ?_, fun f p c slot hp hslot => replicated_slot hp c hslot⟩ <;> cases hp
  · refine edgeMask_eq_run (f := .m1rm) rfl hlt fun k hk => ?_
    simp only [slotOf, if_true]
    omega
  · refine edgeMask_eq_run (f := .m1rl) rfl hlt fun k hk => ?_
    simp only [slotOf, Bool.false_eq_true, if_false]
    omega
  · refine edgeMask_eq_run (f := .g2r) rfl hlt fun k hk => ?_
    simp only [slotOf, if_true]
    omega
  · decide
  · decide

end Sys2Proof.Machine
end

section
/-! The bitmap of a glyph (43_glyph_sampler.md section 1): a sample's byte is one of its row's, and its field one of the
byte's, as for the pixels of a row-major format. -/

namespace Sys2Proof.Machine

/-- The byte of a sample is one of its row's. -/
theorem div_samplesPerByte_lt_rowBytes (d : Depth) {width x : Nat} (hx : x < width) :
    x / (8 / d.bits) < glyphRowBytes d.bits width := by
  cases d <;> simp only [glyphRowBytes, ceilDiv, Depth.bits] <;> omega

/-- Equal slots that overlap are one slot. -/
theorem slot_eq_of_overlap {i j n : Nat} (hij : i * n < j * n + n) (hji : j * n < i * n + n) : i = j := by
  rw [← Nat.succ_mul] at hij hji
  exact Nat.le_antisymm (Nat.le_of_lt_succ (Nat.lt_of_mul_lt_mul_right hij))
    (Nat.le_of_lt_succ (Nat.lt_of_mul_lt_mul_right hji))

/-- Settles O49: row and column byte of a sample are determined by its byte (`linearIndex_injective`), its slot by its
field. -/
theorem samplesStayInBitmapAndApart : Obligations.SamplesStayInBitmapAndApart := by
  intro d width height offset x y x' y' hx hy hx' hy'
  have hrow := div_samplesPerByte_lt_rowBytes d hx
  have hrow' := div_samplesPerByte_lt_rowBytes d hx'
  unfold sampleByte
  refine ⟨Nat.le_add_right_of_le (Nat.le_add_right _ _), ?_, fun hbyte hlow hhigh => ?_⟩
  · have hrows : (y + 1) * glyphRowBytes d.bits width ≤ height * glyphRowBytes d.bits width :=
      Nat.mul_le_mul_right _ hy
    rw [Nat.succ_mul, Nat.mul_comm height] at hrows
    change _ < offset + glyphRowBytes d.bits width * height
    omega
  · obtain ⟨hcolumn, hy⟩ := linearIndex_injective hrow hrow' (y := y) (y' := y') (by omega)
    have hslot := slot_eq_of_overlap hlow hhigh
    rw [← Nat.div_add_mod x (8 / d.bits), ← Nat.div_add_mod x' (8 / d.bits), hcolumn, hslot]
    exact ⟨rfl, hy⟩

/-- The row-major format that packs pixels as a depth packs samples: the least significant field first. -/
def samplingFormat (d : Depth) : PixFormat :=
  match d with
  | .d1 => .m1rm
  | .d2 => .g2r
  | .d4 => .g4rl
  | .d8 => .g8

/-- On a surface as wide as the bytes of a row hold samples, a pixel lies where the sample lies. -/
theorem placeOf_samplingFormat (d : Depth) (width x y : Nat) :
    placeOf (samplingFormat d) (glyphRowBytes d.bits width * (8 / d.bits)) x y =
      .bits (sampleByte d.bits width 0 x y) (x % (8 / d.bits) * d.bits) (2 ^ d.bits - 1) := by
  have hbyte (ppb bytes : Nat) (hpos : 0 < ppb) : (x + y * (bytes * ppb)) / ppb = 0 + y * bytes + x / ppb := by
    rw [← Nat.mul_assoc, Nat.add_mul_div_right _ _ hpos]
    omega
  cases d with
  | d1 =>
    rw [sampleByte, ← hbyte _ _ (by decide), Depth.bits, Nat.mul_one]
    rfl
  | d2 =>
    rw [sampleByte, ← hbyte _ _ (by decide)]
    rfl
  | d4 =>
    have hslot : (if x % 2 = 0 then 0 else 4) = x % 2 * 4 := by split <;> omega
    rw [sampleByte, ← hbyte _ _ (by decide)]
    exact congrArg (Place.bits _ · 15) hslot
  | d8 =>
    rw [sampleByte, ← hbyte _ _ (by decide), Depth.bits, Nat.div_one, Nat.mod_one]
    rfl

/-- A sample is the pixel at the same coordinates of such a surface. -/
theorem sampleValue_eq_pixel (d : Depth) (width x y : Nat) (big : Bool) (m : Memory) :
    (sampleValue d.bits x (m.read (sampleByte d.bits width 0 x y))).setWidth 32 =
      (placeOf (samplingFormat d) (glyphRowBytes d.bits width * (8 / d.bits)) x y).load big m := by
  rw [placeOf_samplingFormat, sampleValue_eq_load _ _ _ big]

/-- Settles O50: at each depth by `sampleValue_eq_pixel`, with the bytes of a row in the depth's own spelling. -/
theorem samplingIsRowMajorPacking : Obligations.SamplingIsRowMajorPacking := by
  intro width x y big m _
  rw [← glyphRowBytes_one, ← glyphRowBytes_two, ← glyphRowBytes_four]
  refine ⟨sampleValue_eq_pixel .d1 width x y big m, sampleValue_eq_pixel .d2 width x y big m,
    sampleValue_eq_pixel .d4 width x y big m, (sampleValue_eq_pixel .d8 width x y big m).trans ?_⟩
  rw [Depth.bits, glyphRowBytes_eight, Nat.div_self (by decide), Nat.mul_one]
  rfl

end Sys2Proof.Machine
end

section
/-! The laws of BLEND over all formats (44_alpha_blend.md section 4) and what it reads (section 1): within the format's
range the clamp does nothing, so that every channel of the answer is the interpolation of that channel. -/

namespace Sys2Proof.Machine

/-! ## The blended colour of a format -/

section
variable {amax a : Nat}

/-- Equal inputs are mixed to themselves. -/
theorem lerp_self (hpos : 0 < amax) (ha : a ≤ amax) (c : Nat) : lerp amax a c c = c :=
  Nat.le_antisymm (lerp_le le_rfl le_rfl ha) (le_lerp hpos le_rfl le_rfl ha)

theorem blendOf_zero (hpos : 0 < amax) (f : PixFormat) (fg bg : Colour) : blendOf f amax 0 fg bg = bg := by
  by_cases hf : f = .rgb565
  · subst hf
    refine BitVec.eq_of_toNat_eq ((toNat_blendFields (Nat.zero_le amax) fg bg).trans ?_)
    rw [lerp_zero hpos, lerp_zero hpos, lerp_zero hpos]
    omega
  · rw [blendOf_of_ne_rgb565 hf]
    exact if_pos rfl

theorem blendOf_full (hpos : 0 < amax) (f : PixFormat) (fg bg : Colour) : blendOf f amax amax fg bg = fg := by
  by_cases hf : f = .rgb565
  · subst hf
    refine BitVec.eq_of_toNat_eq ((toNat_blendFields (le_refl amax) fg bg).trans ?_)
    rw [lerp_full hpos, lerp_full hpos, lerp_full hpos]
    omega
  · rw [blendOf_of_ne_rgb565 hf]
    exact (if_neg hpos.ne').trans (if_pos rfl)

theorem formatMax_lt (f : PixFormat) : formatMax f < 65536 := by
  cases f <;> decide

/-- The one channel of colours in range is their interpolation: at the end points it is exact, and between them the
clamp does nothing. -/
theorem toNat_blendOf_channel (hpos : 0 < amax) (ha : a ≤ amax) {f : PixFormat} (hf : f ≠ .rgb565) {fg bg : Colour}
    (hfg : fg.toNat ≤ formatMax f) (hbg : bg.toNat ≤ formatMax f) :
    (blendOf f amax a fg bg).toNat = lerp amax a fg.toNat bg.toNat := by
  rw [blendOf_of_ne_rgb565 hf, toNat_blendSingle (formatMax_lt f)]
  split_ifs with hzero hfull
  · rw [hzero, lerp_zero hpos]
  · rw [hfull, lerp_full hpos]
  · exact Nat.min_eq_left (lerp_le hfg hbg ha)

/-- Each field of RGB565 is the interpolation of that field. -/
theorem toNat_blendOf_field (ha : a ≤ amax) (fg bg : Colour) {start size : Nat}
    (hfield : (start, size) ∈ [(11, 5), (5, 6), (0, 5)]) :
    (blendOf .rgb565 amax a fg bg).toNat / 2 ^ start % 2 ^ size =
      lerp amax a (fg.toNat / 2 ^ start % 2 ^ size) (bg.toNat / 2 ^ start % 2 ^ size) := by
  have hred : lerp amax a (fg.toNat / 2048) (bg.toNat / 2048) < 32 := lerp_lt (by omega) (by omega) ha
  have hgreen : lerp amax a (fg.toNat / 32 % 64) (bg.toNat / 32 % 64) < 64 := lerp_lt (by omega) (by omega) ha
  have hblue : lerp amax a (fg.toNat % 32) (bg.toNat % 32) < 32 := lerp_lt (by omega) (by omega) ha
  have hvalue : (blendOf .rgb565 amax a fg bg).toNat = _ := toNat_blendFields ha fg bg
  rw [hvalue]
  simp only [List.mem_cons, Prod.mk.injEq, List.not_mem_nil, or_false] at hfield
  obtain ⟨rfl, rfl⟩ | ⟨rfl, rfl⟩ | ⟨rfl, rfl⟩ := hfield <;> simp only [Nat.reducePow, Nat.div_one]
  · have top (c : Colour) : c.toNat / 2048 % 32 = c.toNat / 2048 := by omega
    rw [top fg, top bg]
    omega
  · omega
  · omega

/-- Equal colours, in range where the format has one channel, are unchanged at every coverage. -/
theorem blendOf_self (hpos : 0 < amax) (ha : a ≤ amax) {f : PixFormat} {c : Colour}
    (hrange : f = .rgb565 ∨ c.toNat ≤ formatMax f) : blendOf f amax a c c = c := by
  refine BitVec.eq_of_toNat_eq ?_
  by_cases hf : f = .rgb565
  · subst hf
    refine (toNat_blendFields ha c c).trans ?_
    rw [lerp_self hpos ha, lerp_self hpos ha, lerp_self hpos ha]
    omega
  · have hc : c.toNat ≤ formatMax f := hrange.resolve_left hf
    rw [toNat_blendOf_channel hpos ha hf hc hc, lerp_self hpos ha]

/-- Colours in range are blended to a colour in range. -/
theorem toNat_blendOf_le (hpos : 0 < amax) (ha : a ≤ amax) {f : PixFormat} {fg bg : Colour}
    (hfg : fg.toNat ≤ formatMax f) (hbg : bg.toNat ≤ formatMax f) :
    (blendOf f amax a fg bg).toNat ≤ formatMax f := by
  by_cases hf : f = .rgb565
  · subst hf
    exact Nat.le_of_lt_succ (BitVec.isLt _)
  · rw [toNat_blendOf_channel hpos ha hf hfg hbg]
    exact lerp_le hfg hbg ha

end

/-- A colour in range loses nothing to the mask of a PSET (41_pixel_set_get.md R99). -/
theorem and_formatMax_of_le {f : PixFormat} {n : Nat} (h : n ≤ formatMax f) : n &&& formatMax f = n :=
  Nat.and_two_pow_sub_one_of_lt_two_pow (Nat.lt_of_le_pred (Nat.two_pow_pos _) h)

/-! ## The laws (section 4) -/

/-- A BLEND that passes its checks answers the blended colour. -/
theorem blendVariant_answersOnly (f : PixFormat) {bpp a : BitVec 8} (fg bg : Colour) {s : State}
    (hset : s.pfValid = true) (hdepth : bpp.toNat = 1 ∨ bpp.toNat = 2 ∨ bpp.toNat = 4 ∨ bpp.toNat = 8)
    (ha : a.toNat ≤ 2 ^ bpp.toNat - 1) :
    AnswersOnly (blendVariant f bpp a fg bg) s ((blendOf f (2 ^ bpp.toNat - 1) a.toNat fg bg).setWidth 32) := by
  obtain ⟨v, hanswer, hv⟩ := blendVariant_answers f fg bg hset hdepth ha
  rwa [BitVec.eq_of_toNat_eq (hv.trans (BitVec.toNat_setWidth_of_le (by decide)).symm)] at hanswer

/-- Settles O54: the answer is the blended colour (`blendVariant_answersOnly`); each channel of it is an interpolation
(`toNat_blendOf_channel`, `toNat_blendOf_field`), so that the laws are those of `lerp`. -/
theorem blendLaws : Obligations.BlendLaws := by
  intro f bpp fg bg s hset hdepth
  have hpos := two_pow_depth_sub_one_pos hdepth
  have answers {a : BitVec 8} := blendVariant_answersOnly f (a := a) fg bg hset hdepth
  refine ⟨?_, fun a hfull => ?_, fun a ha hsame hrange => ?_, fun hfg hbg a b hab hb => ?_⟩
  · have hzero := answers (a := 0) (Nat.zero_le _)
    rwa [show (0 : BitVec 8).toNat = 0 from rfl, blendOf_zero hpos] at hzero
  · have hanswer := answers hfull.le
    rwa [hfull, blendOf_full hpos] at hanswer
  · subst hsame
    have hanswer := answers ha
    rwa [blendOf_self hpos ha hrange] at hanswer
  · have ha := hab.trans hb
    have hle := toNat_blendOf_le hpos ha hfg hbg
    refine ⟨_, _, answers ha, answers hb, hle, and_formatMax_of_le hle, fun hf => ?_, fun hf => ?_,
      fun hf start size hfield => ?_⟩
    · rw [toNat_blendOf_channel hpos ha hf hfg hbg, toNat_blendOf_channel hpos hb hf hfg hbg]
      exact fun h => lerp_mono h hab hb
    · rw [toNat_blendOf_channel hpos ha hf hfg hbg, toNat_blendOf_channel hpos hb hf hfg hbg]
      exact fun h => lerp_antitone h hab hb
    · subst hf
      rw [toNat_blendOf_field ha fg bg hfield, toNat_blendOf_field hb fg bg hfield]
      exact ⟨fun h => lerp_mono h hab hb, fun h => lerp_antitone h hab hb⟩

/-! ## What BLEND reads and changes (section 1) -/

/-- The response of BLEND depends on the gate alone. -/
theorem blendColours_response_congr (blend : Nat → Nat → Colour → Colour → Colour) (bpp a : BitVec 8) (fg bg : Colour)
    {s s' : State} (hvalid : s.pfValid = s'.pfValid) :
    ∃ r, (blendColours blend bpp a fg bg s).outbox = s.outbox ++ [r] ∧
      (blendColours blend bpp a fg bg s').outbox = s'.outbox ++ [r] := by
  unfold blendColours
  rw [hvalid]
  cases Depth.ofBits bpp.toNat with
  | none => exact ⟨_, rfl, rfl⟩
  | some d =>
    dsimp only
    split_ifs <;> exact ⟨_, rfl, rfl⟩

/-- BLEND changes nothing but the responses and FAULT. -/
theorem blendColours_frame (blend : Nat → Nat → Colour → Colour → Colour) (bpp a : BitVec 8) (fg bg : Colour)
    (s : State) :
    blendColours blend bpp a fg bg s = { s with
      outbox := (blendColours blend bpp a fg bg s).outbox
      faultReg := (blendColours blend bpp a fg bg s).faultReg } := by
  obtain ⟨-, e⟩ | ⟨_, -, -, e⟩ | ⟨_, -, -, -, e⟩ | ⟨_, -, -, -, e⟩ := blendColours_cases blend bpp a fg bg s <;>
    rw [e] <;> rfl

theorem step_blend {s : State} {bpp a : BitVec 8} {fg bg : Colour} {rest : List HostMove}
    (hin : s.inbox = .command (encodeCommand (.blend bpp a fg bg)) :: rest) :
    step s = .next (blendColours (blendOf (PixFormat.ofCode s.pfFormat)) bpp a fg bg (s.setInbox rest)) :=
  (step_of_command hin nofun rfl).trans (exec_blendVariant _ bpp a fg bg (s.setInbox rest))

/-- Settles O55: the two states have the same blend function and the same gate (`blendColours_response_congr`). -/
theorem blendReadsFormatAndValidOnly : Obligations.BlendReadsFormatAndValidOnly := by
  intro s s' t bpp a fg bg rest rest' hformat hvalid hin hin' hstep
  cases (step_blend hin).symm.trans hstep
  obtain ⟨r, hout, hout'⟩ := blendColours_response_congr (blendOf (PixFormat.ofCode s.pfFormat)) bpp a fg bg
    (s := s.setInbox rest) (s' := s'.setInbox rest') hvalid
  exact ⟨_, r, step_blend hin', hout, hformat ▸ hout', blendColours_frame _ bpp a fg bg (s.setInbox rest)⟩

end Sys2Proof.Machine
end
